-- ==== Sys2Proof/Word.lean ====
section
/-! DEFINITION. The word types of the block: bytes on the wire, the 16-bit response and DAC word, the 32-bit command
word, and pin levels (00_scope.md R7: "high" is the bit 1, "low" is the bit 0). -/

namespace Sys2Proof

/-- One byte of a serial transfer. -/
abbrev Byte := BitVec 8

/-- A 16-bit DAC word (R94). -/
abbrev Half := BitVec 16

/-- A 32-bit command word (R80). -/
abbrev Word := BitVec 32

/-- The level of one pin: `true` is high (bit 1), `false` is low (bit 0) (R7). -/
abbrev Level := Bool

end Sys2Proof
end

