-- ==== Sys2Proof/Config.lean ====
section
/-! DEFINITION. The named parameters of 00_scope.md R6, and the free values: what the spec leaves open is an opaque
constant without a body, so that no proof can see what it is. -/

namespace Sys2Proof.Config

/-- `TIME_UNIT`: how many milliseconds one time unit lasts; no rule reads it (R6, D9). -/
def timeUnitMs : Nat := 1

/-- `TIME_W`, the width of the time value and of every stored timestamp (R6, D9). -/
abbrev timeW : Nat := 32

/-- `ENC_POLL_MIN`: time units between two accepted encoder samples (R6, R152). -/
def encPollMin : Nat := 3

/-- `BTN_POLL_MIN`: time units between two accepted button samples (R6, R172). -/
def btnPollMin : Nat := 50

/-- `LONG_PRESS_MIN`: the duration from which a release is a long press (R6, R175). -/
def longPressMin : Nat := 500

/-- `ADC_CH_COUNT`: device-local channels of one ADC (R6, R110). -/
def adcChCount : Nat := 8

/-- `DAC_CH_COUNT`: device-local channels of one DAC (R6, R115). -/
def dacChCount : Nat := 2

/-- `ADC_RESULT_W`: the width of an ADC result (R6, R92). -/
abbrev adcResultW : Nat := 10

/-- `DAC_VALUE_W`: the width of a DAC value (R6, R94). -/
abbrev dacValueW : Nat := 12

/-- `DAC_VALUE_MAX`: the largest DAC value (R6, R94). -/
def dacValueMax : Nat := 4095

/-- `ADC_START_BYTE`: the first transmitted byte of an ADC frame (R6, R90). -/
def adcStartByte : Byte := 0x01#8

/-- `ADC_DUMMY_BYTE`: the third transmitted byte of an ADC frame (R6, R90). -/
def adcDummyByte : Byte := 0x00#8

/-- `ANALOG_CH_COUNT`: logical analog-input channels (R6, R130). -/
def analogChCount : Nat := 18

/-- `CV_CH_COUNT`: logical CV-output channels (R6, R135). -/
def cvChCount : Nat := 4

/-- `SEL_COUNT`: the device-select lines, indexed 0..3 (R6, R31, D5). -/
abbrev selCount : Nat := 4

/-- `RSP_W`: the width of the response word (R6, R84, D2). -/
abbrev rspW : Nat := 16

/-- A response word (R84). -/
abbrev Response := BitVec rspW

/-- `INVALID`: the response of a failed read and of an illegal command (R6, R85, D3). -/
def invalid : Response := 0xFFFF#16

/-- The default of `RESET_PREV_A`, the reset value of the stored sample of encoder line A (R6, D12). The parameter itself
is open: a machine's value stands in `State.params`. -/
def resetPrevA : Level := true

/-- The default of `RESET_PREV_BTN`, the reset value of the stored button sample (R6, D12). The parameter itself is open: a
machine's value stands in `State.params`. -/
def resetPrevBtn : Level := true

/-- `SCK_HZ`: the serial clock rate, OPEN; no rule reads it (R6, D16). -/
opaque sckHz : Nat

/-- `DAC_CFG[0][15:12]`, OPEN (R6, R95, D8). -/
opaque dacTop0 : BitVec 4

/-- How far `DAC_CFG[1][15:12]` lies above `DAC_CFG[0][15:12]`, less one and modulo 16: OPEN, so that every pair of
two different values can occur and no other pair (R95: `DAC_CFG[0] != DAC_CFG[1]`). -/
opaque dacStep : Fin 15

/-- `DAC_CFG[1][15:12]`: any value but `DAC_CFG[0][15:12]` (R95). -/
def dacTop1 : BitVec 4 := dacTop0 + BitVec.ofNat 4 (dacStep.val + 1)

/-- `DAC_CFG[dch]`, the configuration word of device-local channel `dch`: open in its top four bits, zero in its low
twelve, and different for the two channels (R6, R36, R95, D8, D24). -/
def dacCfg (dch : Nat) : Half :=
  (if dch = 0 then dacTop0 else dacTop1).setWidth 16 <<< dacValueW

/-- What a `TimeNow()` gives where no time is listed among the inputs: a free value (R200). -/
opaque freeTime : Nat → BitVec timeW

/-- What a `PinRead(ENC_A)` gives where no level is listed among the inputs: a free value (R32). -/
opaque freeEncA : Nat → Level

/-- What a `PinRead(ENC_B)` gives where no level is listed among the inputs: a free value (R32). -/
opaque freeEncB : Nat → Level

/-- What a `PinRead(BTN_IN)` gives where no level is listed among the inputs: a free value (R32). -/
opaque freeBtnIn : Nat → Level

/-- The `MISO` level at a leading clock edge where none is listed among the inputs: a free value (R62, U5). -/
opaque freeMiso : Nat → Level

/-- What a `NativeAin(i)` gives where no conversion is listed among the inputs: a free value (R132, U17). -/
opaque freeNative : Nat → BitVec adcResultW

/-- The level `MOSI` holds once a transaction or a reset has ended: a free value (R31, R35, U9). -/
opaque idleMosi : Nat → Level

end Sys2Proof.Config
end

