-- ==== Sys2Proof/Syntax.lean ====
section
/-! DEFINITION. The six commands of 00_scope.md R3, one constructor per row of spec/opcode_table.json. A channel and a
value are the integers of R11 and R98; that they fit their fields of the command word is `Instr.wellFormed`. -/

namespace Sys2Proof

/-- The four select lines (R31), by the names R98 gives them: `CS_N[0]` ADC A, `CS_N[1]` ADC B, `CS_N[2]` DAC A,
`CS_N[3]` DAC B. -/
inductive SelectLine where
  | adcA
  | adcB
  | dacA
  | dacB
deriving DecidableEq, Repr

/-- The commands (R3, R98). -/
inductive Instr where
  /-- RDCONV `sel`, `ch`: read one ADC channel (R110). -/
  | rdconv (sel : SelectLine) (ch : Nat)
  /-- WRCONV `sel`, `ch`, `val`: write one DAC channel (R115). -/
  | wrconv (sel : SelectLine) (ch : Nat) (val : Nat)
  /-- RDANALOG `ch`: read one logical analog channel (R130). -/
  | rdanalog (ch : Nat)
  /-- WRCV `ch`, `val`: write one logical CV channel (R135). -/
  | wrcv (ch : Nat) (val : Nat)
  /-- ENCPOLL: poll the quadrature decoder (R150). -/
  | encpoll
  /-- BTNPOLL: poll the button classifier (R170). -/
  | btnpoll
deriving DecidableEq, Repr

end Sys2Proof
end

