-- ==== Sys2Proof/WellFormed.lean ====
section
/-! DEFINITION. Which commands have a command word: the operands fit their fields (30_encoding.md R81, R98). A channel
out of range of its operation is well formed; its response is the operation's own matter (R83). -/

namespace Sys2Proof

/-- `ch` is 0..255, the 8-bit field `CH` (R81, R98). -/
def channelFits (ch : Nat) : Bool := decide (ch < 256)

/-- `val` is 0..65535, the 16-bit field `VAL` (R81, R98). -/
def valueFits (val : Nat) : Bool := decide (val < 65536)

/-- The command has a command word: every operand fits its field. -/
def Instr.wellFormed : Instr → Bool
  | .rdconv _ ch => channelFits ch
  | .wrconv _ ch val => channelFits ch && valueFits val
  | .rdanalog ch => channelFits ch
  | .wrcv ch val => channelFits ch && valueFits val
  | .encpoll => true
  | .btnpoll => true

end Sys2Proof
end

