-- ==== Sys2Proof/Decode.lean ====
section
/-! DEFINITION. The command word `CMD32` (30_encoding.md R80 to R83, R86, R98): its fields, the opcode map as a list of
rows, the decoder (total, rejecting by name), the encoder, and the host's `decodeTableWord`. -/

namespace Sys2Proof

/-- `OP`, bits 31..28 (R81). -/
def opField (c : Word) : BitVec 4 := c.extractLsb' 28 4

/-- `SEL`, bits 27..26 (R81). -/
def selField (c : Word) : BitVec 2 := c.extractLsb' 26 2

/-- `RSV`, bits 25..24 (R81). -/
def rsvField (c : Word) : BitVec 2 := c.extractLsb' 24 2

/-- `CH`, bits 23..16 (R81). -/
def chField (c : Word) : BitVec 8 := c.extractLsb' 16 8

/-- `VAL`, bits 15..0 (R81). -/
def valField (c : Word) : BitVec 16 := c.extractLsb' 0 16

/-- The select line of an index 0..3 (R31). -/
def selOf (b : BitVec 2) : SelectLine :=
  if b = 0#2 then .adcA else if b = 1#2 then .adcB else if b = 2#2 then .dacA else .dacB

/-- The index of a select line among the `SEL_COUNT` lines (R6, R31). -/
def selIndex : SelectLine → Fin Config.selCount
  | .adcA => 0
  | .adcB => 1
  | .dacA => 2
  | .dacB => 3

/-- The index of a select line in the field `SEL` (R31, R81). -/
def selCode (l : SelectLine) : BitVec 2 := BitVec.ofNat 2 (selIndex l).val

/-- One row of the opcode map (R82): a word `c` is the row's command exactly when `c & mask = pattern`, and then the
command is `build c`. -/
structure OpcodeRow where
  pattern : Word
  mask : Word
  build : Word → Instr

/-- RDCONV (R82). -/
def rowRdconv : OpcodeRow :=
  ⟨0x10000000#32, 0xF300FFFF#32, fun c => .rdconv (selOf (selField c)) (chField c).toNat⟩

/-- WRCONV (R82). -/
def rowWrconv : OpcodeRow :=
  ⟨0x20000000#32, 0xF3000000#32, fun c => .wrconv (selOf (selField c)) (chField c).toNat (valField c).toNat⟩

/-- RDANALOG (R82). -/
def rowRdanalog : OpcodeRow :=
  ⟨0x30000000#32, 0xFF00FFFF#32, fun c => .rdanalog (chField c).toNat⟩

/-- WRCV (R82). -/
def rowWrcv : OpcodeRow :=
  ⟨0x40000000#32, 0xFF000000#32, fun c => .wrcv (chField c).toNat (valField c).toNat⟩

/-- ENCPOLL (R82). -/
def rowEncpoll : OpcodeRow := ⟨0x50000000#32, 0xFFFFFFFF#32, fun _ => .encpoll⟩

/-- BTNPOLL (R82). -/
def rowBtnpoll : OpcodeRow := ⟨0x60000000#32, 0xFFFFFFFF#32, fun _ => .btnpoll⟩

/-- The opcode map (R82). -/
def opcodeMap : List OpcodeRow :=
  [rowRdconv, rowWrconv, rowRdanalog, rowWrcv, rowEncpoll, rowBtnpoll]

/-- Whether a word is the command of a row (R82). -/
def OpcodeRow.hits (r : OpcodeRow) (c : Word) : Bool := c &&& r.mask == r.pattern

/-- Why a word is an illegal command (R86). -/
inductive Reject where
  /-- `OP` is `0x0` or `0x7`..`0xF`. -/
  | reservedOpcode
  /-- `OP` is defined and a field that must be zero is not. -/
  | nonzeroReservedField
deriving DecidableEq, Repr

/-- The name of a rejected word's fault (R86). -/
def rejectReason (c : Word) : Reject :=
  if opField c = 0#4 ∨ 6#4 < opField c then .reservedOpcode else .nonzeroReservedField

/-- Decoding (R83): the row that the word hits, or the reason there is none. Total on any 32 bits. -/
def decode (c : Word) : Except Reject Instr :=
  match opcodeMap.find? (fun r => r.hits c) with
  | some r => .ok (r.build c)
  | none => .error (rejectReason c)

/-- A command word from its fields, `RSV` zero: `(OP << 28) | (sel << 26) | (ch << 16) | val` (R81, R98). -/
def cmd32 (op : BitVec 4) (sel : BitVec 2) (ch : BitVec 8) (val : BitVec 16) : Word :=
  (op.setWidth 32 <<< 28) ||| (sel.setWidth 32 <<< 26) ||| (ch.setWidth 32 <<< 16) ||| val.setWidth 32

/-- The command word of a well-formed command (R82, R98), absent operands zero. -/
def encode : Instr → Word
  | .rdconv sel ch => cmd32 0x1#4 (selCode sel) (BitVec.ofNat 8 ch) 0#16
  | .wrconv sel ch val => cmd32 0x2#4 (selCode sel) (BitVec.ofNat 8 ch) (BitVec.ofNat 16 val)
  | .rdanalog ch => cmd32 0x3#4 0#2 (BitVec.ofNat 8 ch) 0#16
  | .wrcv ch val => cmd32 0x4#4 0#2 (BitVec.ofNat 8 ch) (BitVec.ofNat 16 val)
  | .encpoll => cmd32 0x5#4 0#2 0#8 0#16
  | .btnpoll => cmd32 0x6#4 0#2 0#8 0#16

/-- The 32-bit command word whose bits are the low `nbits` bits of `w`; every command is one word (R80, R87). -/
def tableWord (nbits w : Nat) : Word := BitVec.ofNat 32 (w % 2 ^ nbits)

/-- The command the decoder reads from a word of the opcode table, none where it rejects the word. -/
def decodeTableWord (nbits w : Nat) : Option Instr :=
  match decode (tableWord nbits w) with
  | .ok i => some i
  | .error _ => none

end Sys2Proof
end

