-- ==== Sys2Proof/Machine/State.lean ====
section
/-! DEFINITION. The state of the block (10_state.md R20 to R39), the environment's answers still to come and the
model's observables, as plain data; the reasons a step can stop; the state after reset (R39, R220). -/

namespace Sys2Proof.Machine

/-- A time value or a stored timestamp (R23, R200). -/
abbrev Time := BitVec Config.timeW

/-- The levels of `CS_N[0..3]`, active low: `false` is asserted (R31). -/
structure SelectLines where
  adcA : Level
  adcB : Level
  dacA : Level
  dacB : Level
deriving DecidableEq, Repr

/-- The pins the block drives, with the in-flight marker: the pin-level view of the block. -/
structure Pins where
  /-- `CS_N[0..3]` (R31). -/
  csN : SelectLines
  /-- `SCK`, the serial clock (R31). -/
  sck : Level
  /-- `MOSI`, serial data out (R31). -/
  mosi : Level
  /-- `BUSY`, 1 from `TxnBegin()` to `TxnEnd()` (R33). -/
  busy : Bool
  /-- `cmd_ready`, 0 while a command executes (R32, R33). -/
  cmdReady : Bool
  /-- `rsp_valid` (R32). -/
  rspValid : Bool
  /-- `rsp[15:0]` (R32, R84). -/
  rsp : Config.Response
deriving DecidableEq, Repr

/-- The Encoder State (R22 to R24). -/
structure EncState where
  /-- `ENC.prevA` (R22). -/
  prevA : Level
  /-- `ENC.lastPoll` (R23). -/
  lastPoll : Time
  /-- `ENC.tick`, two's complement: `0b00`, `0b01`, `0b11` (R24). -/
  tick : BitVec 2
deriving DecidableEq, Repr

/-- The Button State (R25 to R29). -/
structure BtnState where
  /-- `BTN.prev` (R25); the classifier is `released` when it is high, `pressed` when it is low (R30). -/
  prev : Level
  /-- `BTN.lastPoll` (R26). -/
  lastPoll : Time
  /-- `BTN.pressTime` (R27). -/
  pressTime : Time
  /-- `BTN.releaseTime` (R28). -/
  releaseTime : Time
  /-- `BTN.result`: `0b00` none, `0b01` short press, `0b10` long press (R29). -/
  result : BitVec 2
deriving DecidableEq, Repr

/-- An event of the bus history (R9, R34). -/
inductive BusEvent where
  | txnBegin
  | csLow (s : SelectLine)
  /-- A byte exchanged: `m` sent, `r` received. -/
  | byte (m r : Byte)
  /-- A 16-bit word sent, nothing received. -/
  | word16 (w : Half)
  | csHigh (s : SelectLine)
  | txnEnd
deriving DecidableEq, Repr

/-- The input pins a command may read with `PinRead` (R9, R32). -/
inductive InPin where
  | encA
  | encB
  | btnIn
deriving DecidableEq, Repr

/-- The two native analog inputs (R32, R132). -/
inductive NativeIn where
  | ain0
  | ain1
deriving DecidableEq, Repr

/-- The environment's answers still to come, oldest first, one list for each input of R32. Each read takes the head of
its list; where the list is empty the read is a free value of Config. -/
structure Inputs where
  /-- The answers of `TimeNow()` (R200). -/
  time : List Time
  /-- The answers of `PinRead(ENC_A)`. -/
  encA : List Level
  /-- The answers of `PinRead(ENC_B)`. -/
  encB : List Level
  /-- The answers of `PinRead(BTN_IN)`. -/
  btnIn : List Level
  /-- The answers of `NativeAin(0)` (R132). -/
  native0 : List (BitVec Config.adcResultW)
  /-- The answers of `NativeAin(1)` (R132). -/
  native1 : List (BitVec Config.adcResultW)
  /-- The levels of `MISO` at the leading edges that sample it (R60, R62). -/
  miso : List Level
deriving DecidableEq, Repr

/-- The open parameters that a machine is built with and `rst` reads (R6, R39). No step changes them. -/
structure OpenParams where
  /-- `RESET_PREV_A`. -/
  resetPrevA : Level
  /-- `RESET_PREV_BTN`. -/
  resetPrevBtn : Level
deriving DecidableEq, Repr

/-- What the host, or the excluded set-up, does to the block between two commands (R13, R220, R225). -/
inductive HostMove where
  /-- Present a command word on `cmd[31:0]` with `cmd_valid` (R32). -/
  | command (w : Word)
  /-- Pulse the reset input `rst` (R220). -/
  | rst
  /-- The one-time external set-up of the lines and the bus (R225). -/
  | setUp
deriving DecidableEq, Repr

/-- The state of the model. `enc`, `btn` and `pins` are the block's; `bus` is R34's observable; the other fields are
the model's own (notes/assumptions 1 to 5 and 10). -/
@[ext]
structure State where
  /-- What the host does next, oldest first; empty where the host presents nothing (R21, R32). -/
  host : List HostMove
  /-- The external set-up of R225 has been done. -/
  setupDone : Bool
  /-- `RESET_PREV_A` and `RESET_PREV_BTN` of this machine (R6). -/
  params : OpenParams
  /-- `ENC` (R22 to R24). -/
  enc : EncState
  /-- `BTN` (R25 to R29). -/
  btn : BtnState
  /-- The output pins, `BUSY` and the host port (R31 to R33). -/
  pins : Pins
  /-- `BUS`, the bus history, oldest first (R34). -/
  bus : List BusEvent
  /-- Every level of the pin-level view since reset, oldest first: one entry for each change a primitive makes. -/
  wave : List Pins
  /-- The environment's answers still to come (R32). -/
  inputs : Inputs
  /-- How many free choices and environment reads there have been: the argument of the free values of Config. -/
  draws : Nat
deriving DecidableEq, Repr

/-- The faults of the block: none. "The block raises no exception, takes no trap and has no handler" (R190). No step
can answer a fault, for this type has no value; safe, for nothing is stopped by it. -/
inductive Fault where
deriving DecidableEq, Repr

/-- Why the model has no move. -/
inductive Refusal where
  /-- Raised by an arm of `exec` whose command has no meaning yet; no arm uses it. Safe: the run stops. -/
  | notModelled (mnemonic : String)
  /-- Raised by `step` where a command is presented while `cmd_ready` is 0 (U10: `refuse`, R230). Safe: the run stops;
  no state that a run from reset reaches between two steps has `cmd_ready` 0. -/
  | commandWhileExecuting
  /-- Raised by `step` where `rst` is pulsed while `cmd_ready` is 0 (U14: `refuse`, R221). Safe: the run stops. -/
  | resetWhileExecuting
  /-- Raised by `step` where a command is presented before the external set-up (U15: `refuse`, R225). Safe: the run
  stops. -/
  | commandBeforeSetUp
deriving DecidableEq, Repr

/-- All four select lines deasserted (R31). -/
def SelectLines.idle : SelectLines := ⟨true, true, true, true⟩

/-- The pins after reset (R31, R39): select lines high, `SCK` low, `BUSY` 0, `cmd_ready` 1, `rsp_valid` 0. The spec
leaves `MOSI` unspecified and gives `rsp` no value: both 0 here (DESIGN CHOICE, notes/assumptions/6.md). -/
def Pins.reset : Pins :=
  { csN := SelectLines.idle, sck := false, mosi := false, busy := false,
    cmdReady := true, rspValid := false, rsp := 0#16 }

/-- No answer listed: every read is a free value. -/
def Inputs.none : Inputs := ⟨[], [], [], [], [], [], []⟩

/-- The state right after reset of the machine built with these values of the open parameters `RESET_PREV_A` and
`RESET_PREV_BTN` (R39, R220, D12). -/
def State.resetWith (prevA prevBtn : Level) : State :=
  { host := []
    setupDone := true
    params := { resetPrevA := prevA, resetPrevBtn := prevBtn }
    enc := { prevA := prevA, lastPoll := 0, tick := 0#2 }
    btn := { prev := prevBtn, lastPoll := 0, pressTime := 0, releaseTime := 0, result := 0#2 }
    pins := Pins.reset
    bus := []
    wave := []
    inputs := Inputs.none
    draws := 0 }

/-- The state right after reset (R39, R220), with the default values of the open parameters. -/
def State.reset : State := State.resetWith Config.resetPrevA Config.resetPrevBtn

end Sys2Proof.Machine
end

