-- ==== Sys2Proof/Machine/Flags.lean ====
section
/-! DEFINITION. The two values that behave like flags, `ENC.tick` and `BTN.result` (10_state.md R37): the time gates and
edges that set them (R151, R152, R155, R172 to R175) and their form in a response (R85). -/

namespace Sys2Proof.Machine

/-- The clock-wrap rule: the stored time to compare with, 0 where the time read is below it (R151). The comparison is
unsigned. For every width of time. -/
def wrapRule {w : Nat} (now lastPoll : BitVec w) : BitVec w :=
  if now.toNat < lastPoll.toNat then 0#w else lastPoll

/-- A time gate: at least `least` time units have elapsed, by modular subtraction (R152, R172, D10). For every width of
time. -/
def gateOpen {w : Nat} (least : Nat) (now lastPoll : BitVec w) : Bool :=
  decide (least ≤ (now - lastPoll).toNat)

/-- `ENC.tick` = 0 (R24). -/
def tickNone : BitVec 2 := 0b00#2

/-- `ENC.tick` = +1 (R24). -/
def tickUp : BitVec 2 := 0b01#2

/-- `ENC.tick` = -1 (R24). -/
def tickDown : BitVec 2 := 0b11#2

/-- The tick of an accepted sample: on a falling edge of A, -1 where B is high and +1 where B is low; else 0
(R155, 90_conflicts.md C1). -/
def tickOf (prevA a b : Level) : BitVec 2 :=
  if prevA = true ∧ a = false then (if b = true then tickDown else tickUp) else tickNone

/-- The response of ENCPOLL, `sext_16(ENC.tick)` (R85, R156). -/
def tickResponse (tick : BitVec 2) : Config.Response := tick.signExtend Config.rspW

/-- `BTN.result` = none (R29). -/
def resultNone : BitVec 2 := 0b00#2

/-- `BTN.result` = short press (R29). -/
def resultShort : BitVec 2 := 0b01#2

/-- `BTN.result` = long press (R29). -/
def resultLong : BitVec 2 := 0b10#2

/-- A press edge: the line was high and is low (R173). -/
def pressEdge (prev c : Level) : Bool := prev && !c

/-- A release edge: the line was low and is high (R174). -/
def releaseEdge (prev c : Level) : Bool := !prev && c

/-- The classification of a duration (R175). For every width of time. -/
def classify {w : Nat} (d : BitVec w) : BitVec 2 :=
  if d.toNat < Config.longPressMin then resultShort else resultLong

/-- The response of BTNPOLL, `zext_16(BTN.result)` (R85, R177). -/
def resultResponse (result : BitVec 2) : Config.Response := result.setWidth Config.rspW

end Sys2Proof.Machine
end

