-- ==== Sys2Proof/Machine/Operands.lean ====
section
/-! DEFINITION. Operand forms: the bit order of a transfer, the wire formats (30_encoding.md R90 to R96) and the device
binding that turns a logical channel into a route (10_state.md R36, 30_encoding.md R97). -/

namespace Sys2Proof.Machine

/-- The bits of a transfer in the order they are sent, most significant first (R54, R60, R61). -/
def bitsMsb {n : Nat} (v : BitVec n) : List Level := (List.range n).map v.getMsbD

/-- The byte whose bits were received in this order, most significant first (R60). -/
def byteOfBits (bits : List Level) : Byte :=
  bits.foldl (fun acc b => (acc <<< 1) ||| (BitVec.ofBool b).setWidth 8) 0#8

/-- The command byte of an ADC frame, `1ccc0000` (R90). -/
def adcCommandByte (ch : BitVec 3) : Byte := 1#1 ++ ch ++ 0#4

/-- The device-local channel of an ADC as the three bits of the command byte, `ch[2:0]` (R110). -/
def adcLocal (ch : Nat) : BitVec 3 := BitVec.ofNat 3 ch

/-- The result of an ADC frame, `((r2 & 0x03) << 8) | r3` (R92). -/
def adcResult (r2 r3 : Byte) : BitVec Config.adcResultW :=
  ((r2 &&& 0x03#8).setWidth Config.adcResultW <<< 8) ||| r3.setWidth Config.adcResultW

/-- The clamp of a DAC value (R96). -/
def clampValue (val : Nat) : Nat := min val Config.dacValueMax

/-- The mask of the value bits of a DAC word, `0x0FFF` (R94). -/
def dacMask : Half := (BitVec.allOnes Config.dacValueW).setWidth 16

/-- The word of a DAC write, `cfg | (min(v, 4095) & 0x0FFF)` (R94). -/
def dacWord (cfg : Half) (val : Nat) : Half := cfg ||| (BitVec.ofNat 16 (clampValue val) &&& dacMask)

/-- A read's result in the response, `zext_16` (R85). -/
def readResponse (result : BitVec Config.adcResultW) : Config.Response :=
  result.setWidth Config.rspW

/-- Where a logical analog channel goes (R36). -/
inductive AnalogRoute where
  /-- A converter: its select line and device-local channel. -/
  | converter (line : SelectLine) (dch : Nat)
  /-- A native analog input outside the converter pair. -/
  | native (i : NativeIn)
deriving DecidableEq, Repr

/-- The route of a logical analog channel, none where the channel is out of range (R36, R97, R130): the channels of the
two ADCs one after the other, then the two native inputs. -/
def analogRoute (ch : Nat) : Option AnalogRoute :=
  if Config.analogChCount ≤ ch then none
  else if ch < Config.adcChCount then some (.converter .adcA ch)
  else if ch < 2 * Config.adcChCount then some (.converter .adcB (ch - Config.adcChCount))
  else if ch = 2 * Config.adcChCount then some (.native .ain0)
  else if ch = 2 * Config.adcChCount + 1 then some (.native .ain1)
  else none

/-- The select line and device-local channel of a logical CV channel, none where it is out of range (R36, R97, R135):
the channels of the two DACs one after the other. -/
def cvRoute (ch : Nat) : Option (SelectLine × Nat) :=
  if Config.cvChCount ≤ ch then none
  else if ch < Config.dacChCount then some (.dacA, ch)
  else if ch < 2 * Config.dacChCount then some (.dacB, ch - Config.dacChCount)
  else none

end Sys2Proof.Machine
end

