-- ==== Sys2Proof/Machine/Ops.lean ====
section
/-! DEFINITION. The primitives of 00_scope.md R9 over State: reads of the environment, the bus primitives at the level
of single pins (20_memory.md R58 to R61), the response (R84), and the shared bodies the commands call. The block takes
no exception and returns from none (60_exceptions.md R190, R198), so there is no such operation here. -/

namespace Sys2Proof.Machine

/-! ### Updates -/

/-- Drive the pins to new levels; the pin-level view records them. -/
def State.drive (s : State) (p : Pins) : State := { s with pins := p, wave := s.wave ++ [p] }

/-- Append one event to `BUS` (R34). -/
def State.emit (s : State) (e : BusEvent) : State := { s with bus := s.bus ++ [e] }

/-- Write the Encoder State. -/
def State.setEnc (s : State) (e : EncState) : State := { s with enc := e }

/-- Write the Button State. -/
def State.setBtn (s : State) (b : BtnState) : State := { s with btn := b }

/-- Count one draw, leaving the inputs as given. -/
def State.drawn (s : State) (inputs : Inputs) : State := { s with inputs := inputs, draws := s.draws + 1 }

/-! ### Reads of the environment: each is a draw (R12, R32) -/

/-- What `TimeNow()` gives (R9, R200). -/
def State.timeNow (s : State) : Time := s.inputs.time.headD (Config.freeTime s.draws)

/-- After one `TimeNow()`. -/
def State.tookTime (s : State) : State := s.drawn { s.inputs with time := s.inputs.time.tail }

/-- What `PinRead(line)` gives (R9). -/
def State.pinRead (s : State) : InPin → Level
  | .encA => s.inputs.encA.headD (Config.freeEncA s.draws)
  | .encB => s.inputs.encB.headD (Config.freeEncB s.draws)
  | .btnIn => s.inputs.btnIn.headD (Config.freeBtnIn s.draws)

/-- After one `PinRead(line)`. -/
def State.tookPin (s : State) : InPin → State
  | .encA => s.drawn { s.inputs with encA := s.inputs.encA.tail }
  | .encB => s.drawn { s.inputs with encB := s.inputs.encB.tail }
  | .btnIn => s.drawn { s.inputs with btnIn := s.inputs.btnIn.tail }

/-- What `NativeAin(i)` gives (R132). -/
def State.nativeAin (s : State) : NativeIn → BitVec Config.adcResultW
  | .ain0 => s.inputs.native0.headD (Config.freeNative s.draws)
  | .ain1 => s.inputs.native1.headD (Config.freeNative s.draws)

/-- After one `NativeAin(i)`. -/
def State.tookNative (s : State) : NativeIn → State
  | .ain0 => s.drawn { s.inputs with native0 := s.inputs.native0.tail }
  | .ain1 => s.drawn { s.inputs with native1 := s.inputs.native1.tail }

/-- The level of `MISO` at the leading edge that comes `k` samples from now (R60, R62). -/
def State.misoAt (s : State) (k : Nat) : Level := (s.inputs.miso[k]?).getD (Config.freeMiso (s.draws + k))

/-- After one sample of `MISO`. -/
def State.tookMiso (s : State) : State := s.drawn { s.inputs with miso := s.inputs.miso.tail }

/-- The byte that the eight samples of `MISO` from the `k`-th on make (R60). -/
def State.misoByte (s : State) (k : Nat) : Byte :=
  byteOfBits ((List.range 8).map (fun i => s.misoAt (k + i)))

/-! ### The bus primitives -/

/-- The level of one select line. -/
def SelectLines.level (c : SelectLines) : SelectLine → Level
  | .adcA => c.adcA
  | .adcB => c.adcB
  | .dacA => c.dacA
  | .dacB => c.dacB

/-- Drive one select line. -/
def SelectLines.put (c : SelectLines) (l : Level) : SelectLine → SelectLines
  | .adcA => { c with adcA := l }
  | .adcB => { c with adcB := l }
  | .dacA => { c with dacA := l }
  | .dacB => { c with dacB := l }

/-- `TxnBegin()` (R58). -/
def State.txnBegin (s : State) : State :=
  (s.drive { s.pins with busy := true }).emit .txnBegin

/-- `TxnEnd()` (R58). No transfer runs from here on, so `MOSI` holds any level: a free value (R31, R35, U9). -/
def State.txnEnd (s : State) : State :=
  ((s.drive { s.pins with busy := false, mosi := Config.idleMosi s.draws }).drawn s.inputs).emit .txnEnd

/-- `CsAssert(l)`: the line goes low (R59). -/
def State.csAssert (s : State) (l : SelectLine) : State :=
  (s.drive { s.pins with csN := s.pins.csN.put false l }).emit (.csLow l)

/-- `CsDeassert(l)`: the line goes high (R59). -/
def State.csDeassert (s : State) (l : SelectLine) : State :=
  (s.drive { s.pins with csN := s.pins.csN.put true l }).emit (.csHigh l)

/-- `MOSI` takes the level of the next bit, before the leading edge (R60, G4). -/
def State.driveMosi (s : State) (b : Level) : State := s.drive { s.pins with mosi := b }

/-- The leading edge of `SCK` (R60). -/
def State.sckRise (s : State) : State := s.drive { s.pins with sck := true }

/-- The trailing edge of `SCK` (R60). -/
def State.sckFall (s : State) : State := s.drive { s.pins with sck := false }

/-- Exchange bits, one clock pulse each: send the bits in order, and give the levels of `MISO` sampled at the leading
edges, in order (R60). -/
def State.exchangeBits (s : State) : List Level → List Level × State
  | [] => ([], s)
  | b :: bs =>
    let up := (s.driveMosi b).sckRise
    let rest := up.tookMiso.sckFall.exchangeBits bs
    (up.misoAt 0 :: rest.1, rest.2)

/-- Send bits, one clock pulse each; `MISO` is not used (R61). -/
def State.sendBits (s : State) : List Level → State
  | [] => s
  | b :: bs => ((s.driveMosi b).sckRise.sckFall).sendBits bs

/-- `SpiXfer8(m)`: exchange one byte, most significant bit first (R60). -/
def State.spiXfer8 (s : State) (m : Byte) : Byte × State :=
  let x := s.exchangeBits (bitsMsb m)
  (byteOfBits x.1, x.2.emit (.byte m (byteOfBits x.1)))

/-- `SpiXfer16(w)`: send one word, most significant bit first (R61). -/
def State.spiXfer16 (s : State) (w : Half) : State :=
  (s.sendBits (bitsMsb w)).emit (.word16 w)

/-! ### Accepting a command and responding -/

/-- A command is accepted: `cmd_ready` falls while it executes, and the response before it is no longer valid
(R33, R64, R230, notes/assumptions/7.md). -/
def State.accept (s : State) (rest : List HostMove) : State :=
  { s with host := rest }.drive { s.pins with cmdReady := false, rspValid := false }

/-- `respond(v)`: the command ends with its one response, and the next may be presented (R84, R66). -/
def State.respond (s : State) (v : Config.Response) : State :=
  s.drive { s.pins with rsp := v, rspValid := true, cmdReady := true }

/-! ### The shared bodies -/

/-- One ADC transaction under select line `l`: its 10-bit result and the state after it (R110, R112). -/
def State.adcFrame (s : State) (l : SelectLine) (ch : BitVec 3) : BitVec Config.adcResultW × State :=
  let x1 := (s.txnBegin.csAssert l).spiXfer8 Config.adcStartByte
  let x2 := x1.2.spiXfer8 (adcCommandByte ch)
  let x3 := x2.2.spiXfer8 Config.adcDummyByte
  (adcResult x2.1 x3.1, (x3.2.csDeassert l).txnEnd)

/-- One DAC transaction under select line `l` (R115, R117). -/
def State.dacFrame (s : State) (l : SelectLine) (w : Half) : State :=
  ((((s.txnBegin.csAssert l).spiXfer16 w).csDeassert l).txnEnd)

/-- The body of RDCONV (R110, R111). -/
def State.readConverter (s : State) (l : SelectLine) (ch : Nat) : State :=
  if ch < Config.adcChCount then
    let x := s.adcFrame l (adcLocal ch)
    x.2.respond (readResponse x.1)
  else s.respond Config.invalid

/-- The body of WRCONV (R115, R116). -/
def State.writeConverter (s : State) (l : SelectLine) (ch val : Nat) : State :=
  if ch < Config.dacChCount then (s.dacFrame l (dacWord (Config.dacCfg ch) val)).respond 0#16
  else s.respond 0#16

/-! ### What the host does besides a legal command -/

/-- An illegal command word: it responds `INVALID` and does nothing else (R86, R195). -/
def State.illegalCommand (s : State) : State := s.respond Config.invalid

/-- No command is presented: nothing happens (R13, R197). -/
def State.idle (s : State) : State := s

/-- The reset event, between two commands (R220, R221): every field at its reset value, with this machine's `RESET_PREV_A`
and `RESET_PREV_BTN`, and `BUS` empty. What the host and
the environment do next is not the block's; `MOSI` is unspecified, a free value. -/
def State.resetEvent (s : State) (rest : List HostMove) : State :=
  { State.resetWith s.params.resetPrevA s.params.resetPrevBtn with
    host := rest
    setupDone := s.setupDone
    pins := { Pins.reset with mosi := Config.idleMosi s.draws }
    inputs := s.inputs
    draws := s.draws + 1 }

/-- The external set-up of R225: the lines are configured, the select lines stand high, the clock is idle and the bus is
started. The spec knows it once, before the first command. That it is taken in every state, with the same effect where
it has been done before or `cmd_ready` is 0, is the model's choice (DESIGN CHOICE, notes/assumptions/2.md). -/
def State.setUpEvent (s : State) (rest : List HostMove) : State :=
  { s with host := rest, setupDone := true }.drive { s.pins with csN := SelectLines.idle, sck := false }

/-- Why a command presented now is not accepted, if it is not (U10, U15). -/
def State.barsCommand (s : State) : Option Refusal :=
  if s.setupDone = false then some .commandBeforeSetUp
  else if s.pins.cmdReady = false then some .commandWhileExecuting
  else none

/-- Why a reset pulsed now has no meaning, if it has none (U14). -/
def State.barsReset (s : State) : Option Refusal :=
  if s.pins.cmdReady = false then some .resetWhileExecuting else none

end Sys2Proof.Machine
end

