-- ==== Sys2Proof/Machine/Button.lean ====
section
/-! DEFINITION. The Button Debounce & Press Classifier: BTNPOLL (43_button_classifier.md R170 to R179). -/

namespace Sys2Proof.Machine

/-- The start of BTNPOLL: the result is cleared and the time is read (R170, R171). -/
def State.btnStart (s : State) : State := s.tookTime.setBtn { s.btn with result := resultNone }

/-- The Button State after an accepted sample `c` at time `now` (R173 to R176). -/
def BtnState.sampled (b : BtnState) (c : Level) (now : Time) : BtnState :=
  if pressEdge b.prev c then { b with prev := c, lastPoll := now, pressTime := now }
  else if releaseEdge b.prev c then
    { b with prev := c, lastPoll := now, releaseTime := now, result := classify (now - b.pressTime) }
  else { b with prev := c, lastPoll := now }

/-- An accepted sample at time `now` (R172 to R176). -/
def State.btnSample (s : State) (now : Time) : State :=
  (s.tookPin .btnIn).setBtn (s.btn.sampled (s.pinRead .btnIn) now)

/-- The body of BTNPOLL (R170). -/
def State.btnPoll (s : State) : State :=
  let now := s.timeNow
  let s1 := s.btnStart
  let s2 := if gateOpen Config.btnPollMin now s1.btn.lastPoll then s1.btnSample now else s1
  s2.respond (resultResponse s2.btn.result)

/-- BTNPOLL (R170). -/
def execBtnpoll (s : State) : Host.Outcome State Fault Refusal := .next s.btnPoll

end Sys2Proof.Machine
end

