-- ==== Sys2Proof/Machine/Framer.lean ====
section
/-! DEFINITION. The Bus Transaction Framer: RDCONV and WRCONV (40_bus_framer.md R110 to R122). -/

namespace Sys2Proof.Machine

/-- RDCONV `sel`, `ch` (R110, R111). -/
def execRdconv (sel : SelectLine) (ch : Nat) (s : State) : Host.Outcome State Fault Refusal :=
  .next (s.readConverter sel ch)

/-- WRCONV `sel`, `ch`, `val` (R115, R116). -/
def execWrconv (sel : SelectLine) (ch val : Nat) (s : State) : Host.Outcome State Fault Refusal :=
  .next (s.writeConverter sel ch val)

end Sys2Proof.Machine
end

