-- ==== Sys2Proof/Machine/Quadrature.lean ====
section
/-! DEFINITION. The Quadrature Decoder: ENCPOLL (42_quadrature_decoder.md R150 to R158). -/

namespace Sys2Proof.Machine

/-- The start of ENCPOLL: the tick is cleared, the time is read, and the clock-wrap rule is applied (R150, R151, R153). -/
def State.encStart (s : State) : State :=
  s.tookTime.setEnc { s.enc with tick := tickNone, lastPoll := wrapRule s.timeNow s.enc.lastPoll }

/-- An accepted sample at time `now`: both lines are read, the tick is set and the sample stored (R154, R155). -/
def State.encSample (s : State) (now : Time) : State :=
  let a := s.pinRead .encA
  let b := (s.tookPin .encA).pinRead .encB
  ((s.tookPin .encA).tookPin .encB).setEnc { prevA := a, lastPoll := now, tick := tickOf s.enc.prevA a b }

/-- The body of ENCPOLL (R150). -/
def State.encPoll (s : State) : State :=
  let now := s.timeNow
  let s1 := s.encStart
  let s2 := if gateOpen Config.encPollMin now s1.enc.lastPoll then s1.encSample now else s1
  s2.respond (tickResponse s2.enc.tick)

/-- ENCPOLL (R150). -/
def execEncpoll (s : State) : Host.Outcome State Fault Refusal := .next s.encPoll

end Sys2Proof.Machine
end

