-- ==== Sys2Proof/Machine/Router.lean ====
section
/-! DEFINITION. The Channel Router paths: RDANALOG and WRCV (41_channel_router.md R130 to R139). -/

namespace Sys2Proof.Machine

/-- The body of RDANALOG (R130 to R132). -/
def State.readAnalog (s : State) (ch : Nat) : State :=
  match analogRoute ch with
  | some (.converter line dch) => s.readConverter line dch
  | some (.native i) => (s.tookNative i).respond (readResponse (s.nativeAin i))
  | none => s.respond Config.invalid

/-- The body of WRCV (R135, R136). -/
def State.writeCv (s : State) (ch val : Nat) : State :=
  match cvRoute ch with
  | some (line, dch) => s.writeConverter line dch val
  | none => s.respond 0#16

/-- RDANALOG `ch` (R130). -/
def execRdanalog (ch : Nat) (s : State) : Host.Outcome State Fault Refusal := .next (s.readAnalog ch)

/-- WRCV `ch`, `val` (R135). -/
def execWrcv (ch val : Nat) (s : State) : Host.Outcome State Fault Refusal := .next (s.writeCv ch val)

end Sys2Proof.Machine
end

