-- ==== Sys2Proof/Machine/Dispatch.lean ====
section
/-! DEFINITION. The dispatch of a decoded command to its meaning, one arm per constructor (00_scope.md R3). -/

namespace Sys2Proof.Machine

def exec (i : Instr) (s : State) : Host.Outcome State Fault Refusal :=
  match i with
  | .rdconv sel ch => Sys2Proof.Machine.execRdconv sel ch s
  | .wrconv sel ch val => Sys2Proof.Machine.execWrconv sel ch val s
  | .rdanalog ch => Sys2Proof.Machine.execRdanalog ch s
  | .wrcv ch val => Sys2Proof.Machine.execWrcv ch val s
  | .encpoll => Sys2Proof.Machine.execEncpoll s
  | .btnpoll => Sys2Proof.Machine.execBtnpoll s

end Sys2Proof.Machine
end

