-- ==== Sys2Proof/Machine/Present.lean ====
section
/-! DEFINITION. What each move of the host does to the block (10_state.md R21, 70_reset_and_hazards.md R220, R225, R230). -/

namespace Sys2Proof.Machine

/-- A command word is presented while the block is ready: it is accepted, decoded and executed (R83), or, where it is no
command, answered with `INVALID` (R86). -/
def runCommand (w : Word) (rest : List HostMove) (s : State) : Host.Outcome State Fault Refusal :=
  match decode w with
  | .ok i => exec i (s.accept rest)
  | .error _ => .next (s.accept rest).illegalCommand

/-- The host presents a command word (R230), or has no such move (U10, U15). -/
def presentCommand (w : Word) (rest : List HostMove) (s : State) : Host.Outcome State Fault Refusal :=
  match s.barsCommand with
  | some r => .refused r
  | none => runCommand w rest s

/-- The host pulses `rst` (R220), or has no such move (U14). -/
def pulseReset (rest : List HostMove) (s : State) : Host.Outcome State Fault Refusal :=
  match s.barsReset with
  | some r => .refused r
  | none => .next (s.resetEvent rest)

/-- The list of moves with this command word presented first (R21, R32). -/
def presentFirst (w : Word) (moves : List HostMove) : List HostMove := .command w :: moves

end Sys2Proof.Machine
end

