-- ==== Sys2Proof/Machine/Step.lean ====
section
/-! DEFINITION. One step of the machine: the next thing the host does, from presenting a command to its response
(10_state.md R21, 20_memory.md R64 and R66, 70_reset_and_hazards.md R220, R225, R230, R241). -/

namespace Sys2Proof.Machine

/-- One step. A command runs to completion before the next is accepted (R66, R241). The set-up move is taken in every
state, a repeat of it included (DESIGN CHOICE, notes/assumptions/2.md). -/
def step (s : State) : Host.Outcome State Fault Refusal :=
  match s.host with
  | [] => .next s.idle
  | .setUp :: rest => .next (s.setUpEvent rest)
  | .rst :: rest => pulseReset rest s
  | .command w :: rest => presentCommand w rest s

/-- The host presents this command word next. The block fetches nothing (R21), so nothing else is needed. -/
def State.withFetchWord (s : State) (nbits w : Nat) : State :=
  { s with host := presentFirst (tableWord nbits w) s.host }

end Sys2Proof.Machine
end

