-- ==== Sys2Proof/Safety.lean ====
section
/-! DEFINITION. What a safe run is, in the words the statements use: the block between two commands, the shape of the
bus history, the lawful levels of the pins at every instant, the invariant of the machine, and the duties of the host. -/

namespace Sys2Proof.Machine

/-! ### The bus history -/

/-- A whole bus transaction: an ADC read of one device-local channel with the three bytes received, or a DAC write. -/
inductive Txn where
  | adc (l : SelectLine) (ch : BitVec 3) (r1 r2 r3 : Byte)
  | dac (l : SelectLine) (w : Half)
deriving DecidableEq, Repr

/-- The events of a transaction, in order (R112, R117). -/
def Txn.events : Txn → List BusEvent
  | .adc l ch r1 r2 r3 =>
    [.txnBegin, .csLow l, .byte 0x01#8 r1, .byte (1#1 ++ ch ++ 0#4) r2, .byte 0x00#8 r3, .csHigh l, .txnEnd]
  | .dac l w => [.txnBegin, .csLow l, .word16 w, .csHigh l, .txnEnd]

/-- The select line of a transaction. -/
def Txn.line : Txn → SelectLine
  | .adc l _ _ _ _ => l
  | .dac l _ => l

/-- The bus history holds whole transactions, one after the other, and nothing else (R64, R120). -/
def framed (bus : List BusEvent) : Prop := ∃ txns : List Txn, bus = txns.flatMap Txn.events

/-- Reading on from a point where line `l` is low (`low`), the changes of line `l` alternate, low first, and end high
(R120). -/
def alternates (l : SelectLine) : Bool → List BusEvent → Bool
  | low, [] => !low
  | low, .csLow k :: es => if k = l then !low && alternates l true es else alternates l low es
  | low, .csHigh k :: es => if k = l then low && alternates l false es else alternates l low es
  | low, _ :: es => alternates l low es

/-- Where an event stands: outside every transaction, or inside one, before, within and after its select-low window. -/
inductive BusPlace where
  | outside
  | opened
  | selected (l : SelectLine)
  | closed
deriving DecidableEq, Repr

/-- Reading on from a place, transfers stand only inside a select-low window, select lines move only inside a
transaction and one at a time, and no two transactions overlap (R58, R59, R64). -/
def bracketed : BusPlace → List BusEvent → Bool
  | p, [] => decide (p = .outside)
  | .outside, .txnBegin :: es => bracketed .opened es
  | .opened, .csLow l :: es => bracketed (.selected l) es
  | .selected l, .byte _ _ :: es => bracketed (.selected l) es
  | .selected l, .word16 _ :: es => bracketed (.selected l) es
  | .selected l, .csHigh k :: es => decide (k = l) && bracketed .closed es
  | .closed, .txnEnd :: es => bracketed .outside es
  | _, _ => false

/-- Reading on after `bytes` byte and `words` word events since the last change of a select line, every select-low
window ends after exactly three byte events or exactly one word event (R120). -/
def transfersCounted : Nat → Nat → List BusEvent → Bool
  | _, _, [] => true
  | _, _, .csLow _ :: es => transfersCounted 0 0 es
  | bytes, words, .byte _ _ :: es => transfersCounted (bytes + 1) words es
  | bytes, words, .word16 _ :: es => transfersCounted bytes (words + 1) es
  | bytes, words, .csHigh _ :: es =>
    (decide (bytes = 3 ∧ words = 0) || decide (bytes = 0 ∧ words = 1)) && transfersCounted 0 0 es
  | bytes, words, .txnBegin :: es => transfersCounted bytes words es
  | bytes, words, .txnEnd :: es => transfersCounted bytes words es

/-- The select-line discipline of a stretch of the bus history (R120): for every select line the changes alternate, low
first and high last; lines move one at a time, inside a transaction; every select-low window holds exactly three byte
events or exactly one word event, and nothing else. -/
def disciplined (es : List BusEvent) : Prop :=
  bracketed .outside es = true ∧ (∀ l, alternates l false es = true) ∧ transfersCounted 0 0 es = true

/-! ### The pin-level view -/

/-- The levels of the pins while bits are clocked out, three entries a bit: `MOSI` set up, the leading edge, the
trailing edge (R60, R61). -/
def pulses (p : Pins) : List Level → List Pins
  | [] => []
  | b :: bs =>
    { p with mosi := b } :: { p with mosi := b, sck := true } :: { p with mosi := b, sck := false } ::
      pulses { p with mosi := b, sck := false } bs

/-- The pins after bits were clocked out (R60, R61). -/
def pinsAfterBits (p : Pins) : List Level → Pins
  | [] => p
  | b :: bs => pinsAfterBits { p with mosi := b, sck := false } bs

/-- The levels of `MOSI` at the leading edges of a stretch of the pin-level view that begins with `SCK` at `sck`: what
the selected device samples (R60). One entry for each clock pulse. -/
def clockedOut : Level → List Pins → List Level
  | _, [] => []
  | sck, p :: ps => if !sck && p.sck then p.mosi :: clockedOut p.sck ps else clockedOut p.sck ps

/-- What a state's pin-level view holds beyond that of an earlier state. -/
def waveSince (s t : State) : List Pins := t.wave.drop s.wave.length

/-- What a state's bus history holds beyond that of an earlier state. -/
def busSince (s t : State) : List BusEvent := t.bus.drop s.bus.length

/-- How many select lines are low. -/
def SelectLines.low (c : SelectLines) : Nat :=
  (!c.adcA).toNat + (!c.adcB).toNat + (!c.dacA).toNat + (!c.dacB).toNat

/-- The levels the pins may have at any instant: at most one select line low, and only inside a transaction (R59); the
clock high only while a line is selected (R31); a transaction only while a command executes (R33). -/
def Pins.lawful (p : Pins) : Bool :=
  decide (p.csN.low ≤ 1) && (p.csN.low == 0 || p.busy) && (!p.sck || p.csN.low == 1) && (!p.busy || !p.cmdReady)

/-- The pins while no command executes: select lines high, clock low, no transaction, ready (R31, R33, R35). -/
def Pins.quiet (p : Pins) : Bool :=
  decide (p.csN = SelectLines.idle) && !p.sck && !p.busy && p.cmdReady

/-! ### The invariant of the machine -/

/-- What holds between any two steps. -/
structure State.Inv (s : State) : Prop where
  /-- The pins are at rest (R31, R33, R35). -/
  quiet : s.pins.quiet = true
  /-- `ENC.tick` is never `0b10` (R24). -/
  tick : s.enc.tick ≠ 0b10#2
  /-- `BTN.result` is never `0b11` (R29). -/
  result : s.btn.result ≠ 0b11#2
  /-- The bus history holds whole transactions (R64, R120). -/
  bus : framed s.bus
  /-- The pins were lawful at every instant (R31, R33, R59). -/
  wave : ∀ p ∈ s.wave, p.lawful = true

/-- The block can take a command now: the set-up is done and the pins are at rest (R225, R230). -/
def State.ready (s : State) : Bool := s.setupDone && s.pins.quiet

/-! ### Duties of the host -/

/-- Every ADC frame goes to an ADC and every DAC word to a DAC. -/
def Txn.paired : Txn → Bool
  | .adc l _ _ _ _ => decide (l = .adcA) || decide (l = .adcB)
  | .dac l _ => decide (l = .dacA) || decide (l = .dacB)

/-- A command the block executes has responded: the response is valid and the next command may be presented (R84). -/
def State.responded (s : State) (v : Config.Response) : Prop :=
  s.pins.rsp = v ∧ s.pins.rspValid = true ∧ s.pins.cmdReady = true

/-- From `s` to `t` a command did nothing but answer `v`: no other pin moved, not even for an instant, no state was
written, nothing was appended to `BUS`, and nothing was read from the environment. -/
def State.answeredOnly (s t : State) (v : Config.Response) : Prop :=
  t.pins = { s.pins with rsp := v, rspValid := true, cmdReady := true } ∧ t.wave = s.wave ++ [t.pins] ∧
    t.enc = s.enc ∧ t.btn = s.btn ∧ t.bus = s.bus ∧ t.inputs = s.inputs ∧ t.draws = s.draws ∧
    t.host = s.host ∧ t.setupDone = s.setupDone ∧ t.params = s.params

/-- From `s` to `t` a poll left everything alone but its own unit, the response, and the answers it read: no output
pin moved, not even for an instant, and nothing was appended to `BUS` (R150, R170). -/
def State.pollFrame (s t : State) : Prop :=
  t.pins = { s.pins with rsp := t.pins.rsp, rspValid := true, cmdReady := true } ∧ t.wave = s.wave ++ [t.pins] ∧
    t.bus = s.bus ∧ t.host = s.host ∧ t.setupDone = s.setupDone ∧ t.params = s.params ∧
    t.inputs.time = s.inputs.time.tail ∧ t.inputs.native0 = s.inputs.native0 ∧
    t.inputs.native1 = s.inputs.native1 ∧ t.inputs.miso = s.inputs.miso

/-- The events of one ADC transaction with the bytes received, as R112 lists them. -/
def adcEvents (l : SelectLine) (ch : Nat) (r1 r2 r3 : Byte) : List BusEvent :=
  [.txnBegin, .csLow l, .byte 0x01#8 r1, .byte (0x80#8 ||| (BitVec.ofNat 8 ch <<< 4)) r2, .byte 0x00#8 r3,
    .csHigh l, .txnEnd]

/-- The events of one DAC transaction, as R117 lists them. -/
def dacEvents (l : SelectLine) (w : Half) : List BusEvent :=
  [.txnBegin, .csLow l, .word16 w, .csHigh l, .txnEnd]

/-- The response to a successful ADC read: `((r2 & 0x03) << 8) | r3`, zero-extended (R92). -/
def adcAnswer (r2 r3 : Byte) : Config.Response := ((r2.setWidth 16 &&& 0x0003#16) <<< 8) ||| r3.setWidth 16

/-- The time ENCPOLL's gate measures from: the stored time, or 0 where the clock-wrap rule fires (R151, R152). -/
def State.encBase (s : State) : Time := if s.timeNow < s.enc.lastPoll then 0#32 else s.enc.lastPoll

end Sys2Proof.Machine

namespace Sys2Proof

/-- RDCONV only with the select line of an ADC and WRCONV only with that of a DAC (R232). The router always pairs them;
the framer does not check (R121). -/
def Instr.paired : Instr → Bool
  | .rdconv sel _ => decide (sel = .adcA) || decide (sel = .adcB)
  | .wrconv sel _ _ => decide (sel = .dacA) || decide (sel = .dacB)
  | .rdanalog _ => true
  | .wrcv _ _ => true
  | .encpoll => true
  | .btnpoll => true

end Sys2Proof
end

