-- ==== Sys2Proof/Certificates/Slice0/Obligations.lean ====
section
/-! DEFINITION. The statements for the provers, from the numbered rules of spec/. `OBLIGATIONS.json` lists them. -/

open Sys2Proof Sys2Proof.Machine

/-! ### The command word -/

/-- R81, R82, R83, R98: no bit of an encoding is dropped. -/
def Obligations.DecodeOfEncodeIsTheCommand : Prop :=
  ∀ i : Instr, i.wellFormed = true → decode (encode i) = .ok i

/-- R82, R83, R98: every word that is a command is the encoding of a well-formed command, and of that one only. -/
def Obligations.EncodeOfDecodeIsTheWord : Prop :=
  ∀ (c : Word) (i : Instr), decode c = .ok i →
    i.wellFormed = true ∧ encode i = c ∧ ∀ j : Instr, j.wellFormed = true → encode j = c → j = i

/-- R83, with the match and mask columns of R82 and the select lines of R31 by their index. -/
def Obligations.DecodingFollowsTheOpcodeMap : Prop :=
  (selOf 0#2 = .adcA ∧ selOf 1#2 = .adcB ∧ selOf 2#2 = .dacA ∧ selOf 3#2 = .dacB) ∧ ∀ c : Word,
    (c &&& 0xF300FFFF#32 = 0x10000000#32 →
      decode c = .ok (.rdconv (selOf (c.extractLsb' 26 2)) (c.extractLsb' 16 8).toNat)) ∧
    (c &&& 0xF3000000#32 = 0x20000000#32 →
      decode c = .ok (.wrconv (selOf (c.extractLsb' 26 2)) (c.extractLsb' 16 8).toNat (c.extractLsb' 0 16).toNat)) ∧
    (c &&& 0xFF00FFFF#32 = 0x30000000#32 → decode c = .ok (.rdanalog (c.extractLsb' 16 8).toNat)) ∧
    (c &&& 0xFF000000#32 = 0x40000000#32 →
      decode c = .ok (.wrcv (c.extractLsb' 16 8).toNat (c.extractLsb' 0 16).toNat)) ∧
    (c &&& 0xFFFFFFFF#32 = 0x50000000#32 → decode c = .ok .encpoll) ∧
    (c &&& 0xFFFFFFFF#32 = 0x60000000#32 → decode c = .ok .btnpoll) ∧
    (c &&& 0xF300FFFF#32 ≠ 0x10000000#32 → c &&& 0xF3000000#32 ≠ 0x20000000#32 →
      c &&& 0xFF00FFFF#32 ≠ 0x30000000#32 → c &&& 0xFF000000#32 ≠ 0x40000000#32 →
      c &&& 0xFFFFFFFF#32 ≠ 0x50000000#32 → c &&& 0xFFFFFFFF#32 ≠ 0x60000000#32 →
      ∃ r, decode c = .error r)

/-- R98 and the worked examples of R110, R115, R130, R135, R150, R170: a word of each command. -/
def Obligations.WorkedExamplesDecode : Prop :=
  decode 0x14050000#32 = .ok (.rdconv .adcB 5) ∧ decode 0x28010800#32 = .ok (.wrconv .dacA 1 0x0800) ∧
    decode 0x300D0000#32 = .ok (.rdanalog 13) ∧ decode 0x40031388#32 = .ok (.wrcv 3 5000) ∧
    decode 0x50000000#32 = .ok .encpoll ∧ decode 0x60000000#32 = .ok .btnpoll

/-! ### Steps -/

/-- R21, R66, R83, R230: what a step does around `exec` is to take the command from the host, let `cmd_ready` fall and
drop the earlier response. That `rsp_valid` falls there is the model's choice (notes/assumptions/7.md). -/
def Obligations.StepRunsTheDecodedCommand : Prop :=
  ∀ (s : State) (w : Word) (rest : List HostMove) (i : Instr),
    s.host = .command w :: rest → s.setupDone = true → s.pins.cmdReady = true → decode w = .ok i →
    ∃ s1 : State, step s = exec i s1 ∧ s1.host = rest ∧ s1.setupDone = s.setupDone ∧ s1.params = s.params ∧
      s1.enc = s.enc ∧ s1.btn = s.btn ∧ s1.pins = { s.pins with cmdReady := false, rspValid := false } ∧ s1.bus = s.bus ∧
      s1.wave = s.wave ++ [s1.pins] ∧ s1.inputs = s.inputs ∧ s1.draws = s.draws

/-- R86: which words are illegal, and all that an illegal command does. The two new entries of the pin-level view are
the fall of `cmd_ready` and the response. That such words answer so is the spec's decision D4. -/
def Obligations.IllegalCommandAnswersInvalidAndDoesNothing : Prop :=
  ∀ (s : State) (c : Word) (rest : List HostMove),
    s.host = .command c :: rest → s.setupDone = true → s.pins.cmdReady = true →
    (c.extractLsb' 28 4 = 0#4 ∨ 7#4 ≤ c.extractLsb' 28 4 ∨ c.extractLsb' 24 2 ≠ 0#2 ∨
      (c.extractLsb' 28 4 = 1#4 ∧ c.extractLsb' 0 16 ≠ 0#16) ∨
      (c.extractLsb' 28 4 = 3#4 ∧ (c.extractLsb' 26 2 ≠ 0#2 ∨ c.extractLsb' 0 16 ≠ 0#16)) ∨
      (c.extractLsb' 28 4 = 4#4 ∧ c.extractLsb' 26 2 ≠ 0#2) ∨
      (5#4 ≤ c.extractLsb' 28 4 ∧
        (c.extractLsb' 26 2 ≠ 0#2 ∨ c.extractLsb' 16 8 ≠ 0#8 ∨ c.extractLsb' 0 16 ≠ 0#16))) →
    ∃ t, step s = .next t ∧ t.responded 0xFFFF#16 ∧ t.enc = s.enc ∧ t.btn = s.btn ∧ t.bus = s.bus ∧
      t.inputs = s.inputs ∧ t.draws = s.draws ∧ t.host = rest ∧ t.setupDone = s.setupDone ∧ t.params = s.params ∧
      t.pins = { s.pins with rsp := 0xFFFF#16, rspValid := true, cmdReady := true } ∧
      ∃ p : Pins, p = { s.pins with cmdReady := false, rspValid := p.rspValid } ∧ t.wave = s.wave ++ [p, t.pins]

/-- R13, R197: nothing happens of itself. That `MOSI`, `rsp` and `rsp_valid` hold their levels while the host presents
nothing is the model's choice (notes/assumptions/1.md, 7.md, 8.md); R31 and U9 leave `MOSI` unspecified there. -/
def Obligations.NothingHappensWithoutTheHost : Prop :=
  ∀ s : State, s.host = [] → step s = .next s

/-- U10, U14, U15 (93_implementation_defined.md: `refuse`), R221, R225, R230: where the host has no move. -/
def Obligations.MovesTheHostDoesNotHaveAreRefused : Prop :=
  ∀ (s : State) (w : Word) (rest : List HostMove),
    (s.host = .command w :: rest → s.setupDone = false → step s = .refused .commandBeforeSetUp) ∧
    (s.host = .command w :: rest → s.setupDone = true → s.pins.cmdReady = false →
      step s = .refused .commandWhileExecuting) ∧
    (s.host = .rst :: rest → s.pins.cmdReady = false → step s = .refused .resetWhileExecuting)

/-- R84, with `cmd_ready` as R33 says: a command ends with exactly one response. Until it responds no response is
valid and no other command can be presented; then both are so at once. That no response is valid in between is the
model's choice (notes/assumptions/7.md). -/
def Obligations.EveryCommandEndsWithOneResponse : Prop :=
  ∀ (s : State) (w : Word) (rest : List HostMove),
    s.host = .command w :: rest → s.setupDone = true → s.pins.cmdReady = true →
    ∃ t v, step s = .next t ∧ t.responded v ∧ t.host = rest ∧
      ∃ before, t.wave = s.wave ++ before ++ [t.pins] ∧ ∀ p ∈ before, p.rspValid = false ∧ p.cmdReady = false

/-- R100, R190, R241: a block at rest takes every move of the host, and is at rest again after it. -/
def Obligations.BlockAtRestAlwaysSteps : Prop :=
  ∀ s : State, s.ready = true → ∃ t, step s = .next t ∧ t.ready = true

/-- R100, R190, R241: a block at rest runs on for any number of steps, whatever the host and the environment do. -/
def Obligations.BlockAtRestRunsWithoutEnd : Prop :=
  ∀ (n : Nat) (s : State), s.ready = true → ∃ t, Sys2Proof.core.run n s = .next t ∧ t.ready = true

/-! ### Reset -/

/-- R39, R220: the values the spec states for reset, for both values of each open parameter (R6). -/
def Obligations.ResetLeavesTheStatedValues : Prop :=
  ∀ a b : Level,
    (State.resetWith a b).enc = { prevA := a, lastPoll := 0#32, tick := 0b00#2 } ∧
    (State.resetWith a b).btn = { prev := b, lastPoll := 0#32, pressTime := 0#32, releaseTime := 0#32, result := 0b00#2 } ∧
    (∀ l, (State.resetWith a b).pins.csN.level l = true) ∧ (State.resetWith a b).pins.sck = false ∧
    (State.resetWith a b).pins.busy = false ∧ (State.resetWith a b).pins.cmdReady = true ∧
    (State.resetWith a b).pins.rspValid = false ∧ (State.resetWith a b).bus = [] ∧
    (State.resetWith a b).params = { resetPrevA := a, resetPrevBtn := b } ∧
    State.reset = State.resetWith true true

/-- R6, R220, R221: `rst` between two commands, with the machine's own `RESET_PREV_A` and `RESET_PREV_BTN`. `NOW` and the other inputs are the environment's and are not reset.
That the other inputs and the host's moves are kept is the model's choice (notes/assumptions/14.md). -/
def Obligations.ResetInputRestoresTheResetValues : Prop :=
  ∀ (s : State) (rest : List HostMove), s.host = .rst :: rest → s.pins.cmdReady = true →
    ∃ t, step s = .next t ∧ t.enc = { prevA := s.params.resetPrevA, lastPoll := 0#32, tick := 0b00#2 } ∧
      t.btn =
        { prev := s.params.resetPrevBtn, lastPoll := 0#32, pressTime := 0#32, releaseTime := 0#32, result := 0b00#2 } ∧
      (∀ l, t.pins.csN.level l = true) ∧ t.pins.sck = false ∧ t.pins.busy = false ∧ t.pins.cmdReady = true ∧
      t.pins.rspValid = false ∧ t.bus = [] ∧ t.host = rest ∧ t.inputs = s.inputs

/-- R225, with the idle clock of R31: the set-up leaves the lines as a command needs them, whatever they were, and where no
command executes the block takes any word next. What the set-up leaves alone, and that it is taken in every state, a
repeat of it included, is the model's choice (notes/assumptions/2.md). -/
def Obligations.SetUpMakesTheLinesReady : Prop :=
  ∀ (s : State) (rest : List HostMove), s.host = .setUp :: rest →
    ∃ t, step s = .next t ∧ t.setupDone = true ∧ (∀ l, t.pins.csN.level l = true) ∧ t.pins.sck = false ∧
      t.enc = s.enc ∧ t.btn = s.btn ∧ t.bus = s.bus ∧ t.host = rest ∧ t.inputs = s.inputs ∧
      t.pins.cmdReady = s.pins.cmdReady ∧
      (s.pins.cmdReady = true →
        ∀ (w : Word) (moves : List HostMove), ∃ u, step { t with host := .command w :: moves } = .next u)

/-! ### The invariant -/

/-- The invariant holds after reset, for both values of each open parameter (R39). -/
def Obligations.InvariantHoldsAtReset : Prop := ∀ a b : Level, (State.resetWith a b).Inv

/-- R24, R29, R31, R33, R35, R59, R64: from every state that meets the invariant, every step leaves the pins at rest,
keeps the forbidden encodings of `ENC.tick` and `BTN.result` out, keeps `BUS` a list of whole transactions, and moves
the pins through lawful levels only. -/
def Obligations.EveryStepKeepsTheInvariant : Prop :=
  ∀ s t : State, s.Inv → step s = .next t → t.Inv

/-- R58, R59, R64, R120: after every step the whole bus history keeps the select-line discipline, and so does what the step
appended taken by itself, so every select-low window ends within the command that opened it. -/
def Obligations.EveryStepKeepsTheSelectLineDiscipline : Prop :=
  ∀ s t : State, s.Inv → step s = .next t → disciplined t.bus ∧ disciplined (busSince s t)

/-- R34, R63: a command appends at most one whole transaction to `BUS` and takes nothing away. -/
def Obligations.CommandAppendsAtMostOneTransaction : Prop :=
  ∀ (i : Instr) (s : State), ∃ t txns, exec i s = .next t ∧ t.bus = s.bus ++ List.flatMap Txn.events txns ∧
    txns.length ≤ 1

/-- R199: no command of one unit touches another unit's fields. Only ENCPOLL's word changes the Encoder State and only
BTNPOLL's the Button State. -/
def Obligations.OnlyAUnitsOwnPollChangesItsState : Prop :=
  ∀ (s t : State) (w : Word) (rest : List HostMove), s.host = .command w :: rest → step s = .next t →
    (t.enc ≠ s.enc → w = 0x50000000#32) ∧ (t.btn ≠ s.btn → w = 0x60000000#32)

/-! ### The Bus Transaction Framer -/

/-- R90: the command byte, by both formulas and for all eight channels. -/
def Obligations.AdcFrameBytesAreThoseOfTheTable : Prop :=
  Config.adcStartByte = 0x01#8 ∧ Config.adcDummyByte = 0x00#8 ∧
    (∀ ch : BitVec 3, adcCommandByte ch = 1#1 ++ ch ++ 0#4 ∧ adcCommandByte ch = 0x80#8 ||| (ch.setWidth 8 <<< 4)) ∧
    (List.range 8).map (fun k => adcCommandByte (BitVec.ofNat 3 k)) =
      [0x80#8, 0x90#8, 0xA0#8, 0xB0#8, 0xC0#8, 0xD0#8, 0xE0#8, 0xF0#8]

/-- R112: RDCONV completes on every valid channel with exactly the seven events, and no other select line moves, not
even for an instant. The bytes received are the next 24 samples of `MISO`. -/
def Obligations.RdconvSendsTheSevenEvents : Prop :=
  ∀ (s : State) (sel : SelectLine) (ch : Nat), ch ≤ 7 →
    ∃ t, exec (.rdconv sel ch) s = .next t ∧
      t.bus = s.bus ++ adcEvents sel ch (s.misoByte 0) (s.misoByte 8) (s.misoByte 16) ∧
      ∀ k, k ≠ sel → ∀ p ∈ waveSince s t, p.csN.level k = s.pins.csN.level k

/-- R92, R93: RDCONV answers with the low two bits of the second byte above the third byte, zero-extended: the last ten
of the 24 levels sampled, most significant first. -/
def Obligations.RdconvAnswersTheLastTenBits : Prop :=
  ∀ (s : State) (sel : SelectLine) (ch : Nat), ch ≤ 7 →
    ∃ t, exec (.rdconv sel ch) s = .next t ∧
      t.bus = s.bus ++ adcEvents sel ch (s.misoByte 0) (s.misoByte 8) (s.misoByte 16) ∧
      t.responded (adcAnswer (s.misoByte 8) (s.misoByte 16)) ∧
      (∀ k, t.pins.rsp.getLsbD k = if k < 10 then s.misoAt (23 - k) else false) ∧
      t.pins.rsp.toNat ≤ 1023

/-- R62, R113: for every 10-bit value some device answer yields it, and the answer is never `INVALID`. -/
def Obligations.RdconvCanAnswerEveryTenBitValue : Prop :=
  ∀ (s : State) (sel : SelectLine) (ch : Nat), ch ≤ 7 →
    (∀ v : BitVec 10, ∃ miso t,
      exec (.rdconv sel ch) { s with inputs := { s.inputs with miso := miso } } = .next t ∧
        t.responded (v.setWidth 16)) ∧
    ∃ t v, exec (.rdconv sel ch) s = .next t ∧ t.responded v ∧ v ≠ 0xFFFF#16

/-- R111: a channel outside 0..7 fails, and the check is on the whole channel number. -/
def Obligations.RdconvFailsOnABadChannel : Prop :=
  ∀ (s : State) (sel : SelectLine) (ch : Nat), 8 ≤ ch →
    ∃ t, exec (.rdconv sel ch) s = .next t ∧ s.answeredOnly t 0xFFFF#16

/-- R57, R91: what the device samples over an ADC frame, 24 clock pulses. The clock is low between commands (R31). -/
def Obligations.RdconvClocksOutTheFrame : Prop :=
  ∀ (s : State) (sel : SelectLine) (ch : BitVec 3), s.pins.sck = false →
    ∃ t, exec (.rdconv sel ch.toNat) s = .next t ∧
      clockedOut false (waveSince s t) =
        [false, false, false, false, false, false, false, true,
          true, ch.getLsbD 2, ch.getLsbD 1, ch.getLsbD 0, false, false, false, false,
          false, false, false, false, false, false, false, false]

/-- R117: WRCONV completes on every valid channel with exactly the five events; sixteen clock pulses carry the word,
`w[15]` first, and nothing is received. The clock is low between commands (R31). -/
def Obligations.WrconvSendsTheFiveEvents : Prop :=
  ∀ (s : State) (sel : SelectLine) (ch val : Nat), ch ≤ 1 →
    ∃ t w, exec (.wrconv sel ch val) s = .next t ∧ t.responded 0x0000#16 ∧ t.bus = s.bus ++ dacEvents sel w ∧
      (s.pins.sck = false →
        clockedOut false (waveSince s t) = (List.range 16).map (fun k => w.getLsbD (15 - k))) ∧
      t.inputs = s.inputs

/-- R94, R96, R118: the word WRCONV sends; a value above 4095 is clamped before the mask. -/
def Obligations.WrconvSendsTheClampedValue : Prop :=
  ∀ (s : State) (sel : SelectLine) (ch val : Nat), ch ≤ 1 →
    ∃ t w, exec (.wrconv sel ch val) s = .next t ∧ t.bus = s.bus ++ dacEvents sel w ∧
      w = Config.dacCfg ch ||| BitVec.ofNat 16 (min val 4095) ∧
      w.extractLsb' 0 12 = BitVec.ofNat 12 (min val 4095) ∧
      w.extractLsb' 12 4 = (Config.dacCfg ch).extractLsb' 12 4 ∧
      (4095 < val → w.extractLsb' 0 12 = 0xFFF#12)

/-- R95, R118: the two configuration words leave the value bits alone and differ, so the same value goes to the two
channels as two different words. -/
def Obligations.TheTwoDacChannelsSendDifferentWords : Prop :=
  (∀ ch, ch ≤ 1 → (Config.dacCfg ch).extractLsb' 0 12 = 0#12) ∧ Config.dacCfg 0 ≠ Config.dacCfg 1 ∧
    ∀ (s : State) (sel : SelectLine) (val : Nat), ∃ t0 t1 w0 w1,
      exec (.wrconv sel 0 val) s = .next t0 ∧ t0.bus = s.bus ++ dacEvents sel w0 ∧
      exec (.wrconv sel 1 val) s = .next t1 ∧ t1.bus = s.bus ++ dacEvents sel w1 ∧ w0 ≠ w1

/-- R116: a channel outside 0..1 is a no-op that answers like a performed write. -/
def Obligations.WrconvIgnoresABadChannel : Prop :=
  ∀ (s : State) (sel : SelectLine) (ch val : Nat), 2 ≤ ch →
    ∃ t, exec (.wrconv sel ch val) s = .next t ∧ s.answeredOnly t 0x0000#16

/-- R35, with R31 and R33: the frame of the four bus commands. They do not write the Encoder State or the Button State
nor read them, whatever these hold; `CS_N`, `SCK` and `BUSY` are back at rest; `MOSI` may hold any level.
`rsp` and `rsp_valid` are the command's own response (notes/assumptions/7.md). -/
def Obligations.BusCommandsRetainNothing : Prop :=
  ∀ (s : State) (i : Instr), i ≠ .encpoll → i ≠ .btnpoll → s.pins.csN = SelectLines.idle → s.pins.sck = false →
    s.pins.busy = false →
    ∃ t, exec i s = .next t ∧ t.pins.csN = s.pins.csN ∧ t.pins.sck = s.pins.sck ∧ t.pins.busy = s.pins.busy ∧
      t.host = s.host ∧ t.setupDone = s.setupDone ∧ t.params = s.params ∧ s.bus <+: t.bus ∧
      t.inputs.time = s.inputs.time ∧ t.inputs.encA = s.inputs.encA ∧ t.inputs.encB = s.inputs.encB ∧
      t.inputs.btnIn = s.inputs.btnIn ∧
      ∀ (e : EncState) (b : BtnState), exec i { s with enc := e, btn := b } = .next { t with enc := e, btn := b }

/-- R54, R55, R56, R61: on the wire one 16-bit transfer is two 8-bit transfers, high byte first. -/
def Obligations.AWordIsItsHighByteThenItsLowByte : Prop :=
  ∀ (s : State) (w : Half),
    (s.spiXfer16 w).wave = ((s.spiXfer8 (w.extractLsb' 8 8)).2.spiXfer8 (w.extractLsb' 0 8)).2.wave ∧
      (s.spiXfer16 w).pins = ((s.spiXfer8 (w.extractLsb' 8 8)).2.spiXfer8 (w.extractLsb' 0 8)).2.pins

/-- R60: one byte is exchanged as eight clock pulses, most significant bit first both ways; the k-th sample of `MISO` is
bit 7 - k of the byte received. -/
def Obligations.ByteTransferIsMostSignificantBitFirst : Prop :=
  ∀ (s : State) (m : Byte), s.pins.sck = false →
    clockedOut false (waveSince s (s.spiXfer8 m).2) = (List.range 8).map (fun k => m.getLsbD (7 - k)) ∧
      (∀ k, k < 8 → (s.spiXfer8 m).1.getLsbD (7 - k) = s.misoAt k) ∧
      (s.spiXfer8 m).2.bus = s.bus ++ [.byte m (s.spiXfer8 m).1] ∧ (s.spiXfer8 m).2.pins.sck = false

/-! ### The Channel Router -/

/-- R97, R130: RDANALOG on a converter channel is a read of ADC A or of ADC B. -/
def Obligations.RdanalogReadsTheRoutedConverter : Prop :=
  ∀ (s : State) (ch : Nat), ch ≤ 15 →
    ∃ t, exec (.rdanalog ch) s = .next t ∧
      t.bus = s.bus ++ adcEvents (if ch ≤ 7 then .adcA else .adcB) (if ch ≤ 7 then ch else ch - 8)
        (s.misoByte 0) (s.misoByte 8) (s.misoByte 16) ∧
      t.responded (adcAnswer (s.misoByte 8) (s.misoByte 16)) ∧ t.pins.rsp ≠ 0xFFFF#16

/-- R63, R132: channels 16 and 17 answer with a native conversion, zero-extended, moving nothing on the bus; the one answer
of the native input is taken. That `MOSI` holds its level is the model's choice (notes/assumptions/8.md). -/
def Obligations.RdanalogReadsTheNativeInputs : Prop :=
  ∀ (s : State) (ch : Nat) (i : NativeIn), (ch = 16 ∧ i = .ain0) ∨ (ch = 17 ∧ i = .ain1) →
    ∃ t, exec (.rdanalog ch) s = .next t ∧ t.responded ((s.nativeAin i).setWidth 16) ∧ t.pins.rsp.toNat ≤ 1023 ∧
      t.bus = s.bus ∧ t.wave = s.wave ++ [t.pins] ∧
      t.pins = { s.pins with rsp := t.pins.rsp, rspValid := true, cmdReady := true } ∧
      t.enc = s.enc ∧ t.btn = s.btn ∧ t.host = s.host ∧ t.setupDone = s.setupDone ∧ t.params = s.params ∧
      t.draws = s.draws + 1 ∧
      (i = .ain0 → t.inputs = { s.inputs with native0 := s.inputs.native0.tail }) ∧
      (i = .ain1 → t.inputs = { s.inputs with native1 := s.inputs.native1.tail })

/-- R131: a channel from 18 on fails without touching the bus, and the framer's own check never fails on a route. -/
def Obligations.RdanalogFailsOnABadChannel : Prop :=
  (∀ (s : State) (ch : Nat), 18 ≤ ch → ∃ t, exec (.rdanalog ch) s = .next t ∧ s.answeredOnly t 0xFFFF#16) ∧
    ∀ ch l dch, analogRoute ch = some (.converter l dch) → dch ≤ 7

/-- R97, R135, R137: WRCV on a valid channel is a write of DAC A or of DAC B; a value above 4095 is clamped and written. -/
def Obligations.WrcvWritesTheRoutedConverter : Prop :=
  ∀ (s : State) (ch val : Nat), ch ≤ 3 →
    ∃ t, exec (.wrcv ch val) s = .next t ∧ t.responded 0x0000#16 ∧
      t.bus = s.bus ++ dacEvents (if ch ≤ 1 then .dacA else .dacB)
        (Config.dacCfg (if ch ≤ 1 then ch else ch - 2) ||| BitVec.ofNat 16 (min val 4095))

/-- R136: a channel from 4 on is a no-op, and the framer's own check never fails on a route. -/
def Obligations.WrcvIgnoresABadChannel : Prop :=
  (∀ (s : State) (ch val : Nat), 4 ≤ ch → ∃ t, exec (.wrcv ch val) s = .next t ∧ s.answeredOnly t 0x0000#16) ∧
    ∀ ch l dch, cvRoute ch = some (l, dch) → dch ≤ 1

/-- R121, R139, R232: under the host's duty every ADC frame goes to an ADC and every DAC word to a DAC; the router's
commands need no such duty. -/
def Obligations.PairedCommandsReachTheRightKindOfDevice : Prop :=
  ∀ (s : State) (i : Instr), i.paired = true →
    ∃ t txns, exec i s = .next t ∧ t.bus = s.bus ++ List.flatMap Txn.events txns ∧ ∀ x ∈ txns, x.paired = true

/-- R51, R131, R136: an out-of-range channel never reaches the bus. -/
def Obligations.OnlyAnInRangeChannelReachesTheBus : Prop :=
  ∀ (s t : State) (i : Instr), exec i s = .next t → t.bus ≠ s.bus →
    (∃ sel ch, i = .rdconv sel ch ∧ ch ≤ 7) ∨ (∃ sel ch val, i = .wrconv sel ch val ∧ ch ≤ 1) ∨
      (∃ ch, i = .rdanalog ch ∧ ch ≤ 15) ∨ (∃ ch val, i = .wrcv ch val ∧ ch ≤ 3)

/-! ### The Quadrature Decoder -/

/-- R150: the frame of ENCPOLL, and that it never fails or blocks. -/
def Obligations.EncpollChangesOnlyItsUnit : Prop :=
  ∀ s : State, ∃ t, exec .encpoll s = .next t ∧ s.pollFrame t ∧ t.btn = s.btn ∧ t.inputs.btnIn = s.inputs.btnIn ∧
    t.responded (t.enc.tick.signExtend 16)

/-- R151: the clock-wrap rule. The stored time becomes 0 before the gate is asked, whether or not the gate then passes,
so the elapsed time is `now` itself. -/
def Obligations.EncpollRestartsFromZeroOnAWrap : Prop :=
  ∀ s : State, s.timeNow < s.enc.lastPoll →
    ∃ t, exec .encpoll s = .next t ∧ t.enc.lastPoll ≤ s.timeNow ∧
      (s.timeNow < 3#32 → t.enc.lastPoll = 0#32 ∧ t.enc.prevA = s.enc.prevA) ∧
      (3#32 ≤ s.timeNow → t.enc.lastPoll = s.timeNow)

/-- R152, R153: a poll whose gate fails reads no pin, keeps the stored sample and answers 0 whatever the pins do. -/
def Obligations.EncpollWithTheGateShutAnswersZero : Prop :=
  ∀ s : State, s.timeNow - s.encBase < 3#32 →
    ∃ t, exec .encpoll s = .next t ∧ t.responded 0x0000#16 ∧ t.inputs.encA = s.inputs.encA ∧
      t.inputs.encB = s.inputs.encB ∧ t.draws = s.draws + 1 ∧
      t.enc = { prevA := s.enc.prevA, lastPoll := s.encBase, tick := 0b00#2 }

/-- R154, R155: a poll whose gate passes stores the sample of A and the time, edge or no edge, and its tick is that of
the transition table; each line is read once. That line A is read before line B is the model's choice
(notes/assumptions/4.md): N20 gives no order and D19 takes the two as one instant. -/
def Obligations.EncpollWithTheGateOpenFollowsTheTable : Prop :=
  ∀ (s : State) (a b : Level), 3#32 ≤ s.timeNow - s.encBase →
    s.tookTime.pinRead .encA = a → (s.tookTime.tookPin .encA).pinRead .encB = b →
    ∃ t, exec .encpoll s = .next t ∧ t.enc.prevA = a ∧ t.enc.lastPoll = s.timeNow ∧
      t.inputs.encA = s.inputs.encA.tail ∧ t.inputs.encB = s.inputs.encB.tail ∧ t.draws = s.draws + 3 ∧
      (s.enc.prevA = true → a = true → t.enc.tick = 0b00#2 ∧ t.responded 0x0000#16) ∧
      (s.enc.prevA = true → a = false → b = false → t.enc.tick = 0b01#2 ∧ t.responded 0x0001#16) ∧
      (s.enc.prevA = true → a = false → b = true → t.enc.tick = 0b11#2 ∧ t.responded 0xFFFF#16) ∧
      (s.enc.prevA = false → t.enc.tick = 0b00#2 ∧ t.responded 0x0000#16)

/-- R153, R199: what ENCPOLL answers and the Encoder State it leaves depend on the stored sample and time and on what is
read, and on nothing else: not on the tick an earlier command left, on the Button State, on the pins or on the bus. -/
def Obligations.EncpollDependsOnlyOnItsSampleAndWhatItReads : Prop :=
  ∀ s u : State, s.enc.prevA = u.enc.prevA → s.enc.lastPoll = u.enc.lastPoll → s.inputs = u.inputs →
    s.draws = u.draws →
    ∃ t v, exec .encpoll s = .next t ∧ exec .encpoll u = .next v ∧ t.enc = v.enc ∧ t.pins.rsp = v.pins.rsp ∧
      t.inputs = v.inputs ∧ t.draws = v.draws

/-- R152, R156: after a poll that gave a tick, a poll less than 3 time units later gives none, whatever happened between
the two but another accepted sample or a clock wrap; polls whose gate failed may stand between them. -/
def Obligations.AtMostOneTickInThreeTimeUnits : Prop :=
  ∀ s t u v : State, exec .encpoll s = .next t → t.enc.tick ≠ 0b00#2 → u.enc.lastPoll = t.enc.lastPoll →
    s.timeNow ≤ u.timeNow → u.timeNow - s.timeNow < 3#32 → exec .encpoll u = .next v →
    v.enc.tick = 0b00#2 ∧ v.pins.rsp = 0x0000#16

/-- R151, R155, R157 (e): after a clock wrap the decoder does not stall. A later poll samples at a time from 3 on, or 3
after the wrapping poll where that one sampled, and gives a tick where line A is low and was high. -/
def Obligations.DecoderDoesNotStallAfterAWrap : Prop :=
  ∀ s t u : State, s.timeNow < s.enc.lastPoll → exec .encpoll s = .next t → u.enc = t.enc →
    s.timeNow ≤ u.timeNow → 3#32 ≤ u.timeNow - (if s.timeNow < 3#32 then 0#32 else s.timeNow) →
    ∃ v, exec .encpoll u = .next v ∧ v.enc.lastPoll = u.timeNow ∧
      v.enc.prevA = u.tookTime.pinRead .encA ∧
      (t.enc.prevA = true → u.tookTime.pinRead .encA = false →
        v.enc.tick = if (u.tookTime.tookPin .encA).pinRead .encB = true then 0b11#2 else 0b01#2)

/-! ### The Button Classifier -/

/-- R170: the frame of BTNPOLL, and that it never fails or blocks. -/
def Obligations.BtnpollChangesOnlyItsUnit : Prop :=
  ∀ s : State, ∃ t, exec .btnpoll s = .next t ∧ s.pollFrame t ∧ t.enc = s.enc ∧ t.inputs.encA = s.inputs.encA ∧
    t.inputs.encB = s.inputs.encB ∧ t.responded (t.btn.result.setWidth 16)

/-- R172: a poll whose gate fails writes nothing but the result and reads no pin; the elapsed time is modular. -/
def Obligations.BtnpollWithTheGateShutAnswersNone : Prop :=
  ∀ s : State, s.timeNow - s.btn.lastPoll < 50#32 →
    ∃ t, exec .btnpoll s = .next t ∧ t.responded 0x0000#16 ∧ t.btn = { s.btn with result := 0b00#2 } ∧
      t.inputs.btnIn = s.inputs.btnIn ∧ t.draws = s.draws + 1

/-- R173, R174, R175, R176: a poll whose gate passes stores the sample and the time, edge or no edge, and does what the
transition table says. -/
def Obligations.BtnpollWithTheGateOpenFollowsTheTable : Prop :=
  ∀ (s : State) (c : Level), 50#32 ≤ s.timeNow - s.btn.lastPoll → s.tookTime.pinRead .btnIn = c →
    ∃ t, exec .btnpoll s = .next t ∧ t.btn.prev = c ∧ t.btn.lastPoll = s.timeNow ∧
      t.inputs.btnIn = s.inputs.btnIn.tail ∧ t.draws = s.draws + 2 ∧
      (s.btn.prev = c → t.btn.pressTime = s.btn.pressTime ∧ t.btn.releaseTime = s.btn.releaseTime ∧
        t.btn.result = 0b00#2 ∧ t.responded 0x0000#16) ∧
      (s.btn.prev = true → c = false → t.btn.pressTime = s.timeNow ∧ t.btn.releaseTime = s.btn.releaseTime ∧
        t.btn.result = 0b00#2 ∧ t.responded 0x0000#16) ∧
      (s.btn.prev = false → c = true → t.btn.pressTime = s.btn.pressTime ∧ t.btn.releaseTime = s.timeNow ∧
        (s.timeNow - s.btn.pressTime < 500#32 → t.btn.result = 0b01#2 ∧ t.responded 0x0001#16) ∧
        (500#32 ≤ s.timeNow - s.btn.pressTime → t.btn.result = 0b10#2 ∧ t.responded 0x0002#16))

/-- R171: a result is reported by exactly one poll; the next reports none, whatever happened between the two but another
BTNPOLL, and whatever it reads. -/
def Obligations.AResultIsReportedOnce : Prop :=
  ∀ s t u : State, exec .btnpoll s = .next t → t.btn.result ≠ 0b00#2 → u.btn = t.btn →
    ∃ v, exec .btnpoll u = .next v ∧ v.btn.result = 0b00#2 ∧ v.pins.rsp = 0x0000#16

/-- R171, R199: what BTNPOLL answers and the Button State it leaves depend on the stored sample and times and on what is
read, and on nothing else: not on the result an earlier command left, on the Encoder State, on the pins or on the bus. -/
def Obligations.BtnpollDependsOnlyOnItsSampleAndWhatItReads : Prop :=
  ∀ s u : State, s.btn.prev = u.btn.prev → s.btn.lastPoll = u.btn.lastPoll → s.btn.pressTime = u.btn.pressTime →
    s.btn.releaseTime = u.btn.releaseTime → s.inputs = u.inputs → s.draws = u.draws →
    ∃ t v, exec .btnpoll s = .next t ∧ exec .btnpoll u = .next v ∧ t.btn = v.btn ∧ t.pins.rsp = v.pins.rsp ∧
      t.inputs = v.inputs ∧ t.draws = v.draws

/-- R174, R177, R178 (e): only a poll that reads the line high where the last accepted sample read it low reports a
result; so a press without a release reports none, however often it is polled. -/
def Obligations.OnlyAReleaseReportsAResult : Prop :=
  ∀ s t : State, exec .btnpoll s = .next t → t.btn.result ≠ 0b00#2 →
    s.btn.prev = false ∧ s.tookTime.pinRead .btnIn = true ∧ t.btn.prev = true

/-! ### The open parameters -/

/-- R6, R14: the open parameters are no state: no step changes them. -/
def Obligations.NoStepChangesTheOpenParameters : Prop :=
  ∀ s t : State, step s = .next t → t.params = s.params
end

