-- ==== Sys2Proof/Laws/State.lean ====
section
/-! SUPPORT. One lemma per field per update of State, true by rfl, so that no later proof unfolds an update. -/

namespace Sys2Proof.Machine

variable (s : State)

/-! ### `State.drive` -/

@[simp] theorem State.drive_host (p : Pins) : (s.drive p).host = s.host := rfl
@[simp] theorem State.drive_setupDone (p : Pins) : (s.drive p).setupDone = s.setupDone := rfl
@[simp] theorem State.drive_params (p : Pins) : (s.drive p).params = s.params := rfl
@[simp] theorem State.drive_enc (p : Pins) : (s.drive p).enc = s.enc := rfl
@[simp] theorem State.drive_btn (p : Pins) : (s.drive p).btn = s.btn := rfl
@[simp] theorem State.drive_pins (p : Pins) : (s.drive p).pins = p := rfl
@[simp] theorem State.drive_bus (p : Pins) : (s.drive p).bus = s.bus := rfl
@[simp] theorem State.drive_wave (p : Pins) : (s.drive p).wave = s.wave ++ [p] := rfl
@[simp] theorem State.drive_inputs (p : Pins) : (s.drive p).inputs = s.inputs := rfl
@[simp] theorem State.drive_draws (p : Pins) : (s.drive p).draws = s.draws := rfl

/-! ### `State.emit` -/

@[simp] theorem State.emit_host (e : BusEvent) : (s.emit e).host = s.host := rfl
@[simp] theorem State.emit_setupDone (e : BusEvent) : (s.emit e).setupDone = s.setupDone := rfl
@[simp] theorem State.emit_params (e : BusEvent) : (s.emit e).params = s.params := rfl
@[simp] theorem State.emit_enc (e : BusEvent) : (s.emit e).enc = s.enc := rfl
@[simp] theorem State.emit_btn (e : BusEvent) : (s.emit e).btn = s.btn := rfl
@[simp] theorem State.emit_pins (e : BusEvent) : (s.emit e).pins = s.pins := rfl
@[simp] theorem State.emit_bus (e : BusEvent) : (s.emit e).bus = s.bus ++ [e] := rfl
@[simp] theorem State.emit_wave (e : BusEvent) : (s.emit e).wave = s.wave := rfl
@[simp] theorem State.emit_inputs (e : BusEvent) : (s.emit e).inputs = s.inputs := rfl
@[simp] theorem State.emit_draws (e : BusEvent) : (s.emit e).draws = s.draws := rfl

/-! ### `State.setEnc` -/

@[simp] theorem State.setEnc_host (e : EncState) : (s.setEnc e).host = s.host := rfl
@[simp] theorem State.setEnc_setupDone (e : EncState) : (s.setEnc e).setupDone = s.setupDone := rfl
@[simp] theorem State.setEnc_params (e : EncState) : (s.setEnc e).params = s.params := rfl
@[simp] theorem State.setEnc_enc (e : EncState) : (s.setEnc e).enc = e := rfl
@[simp] theorem State.setEnc_btn (e : EncState) : (s.setEnc e).btn = s.btn := rfl
@[simp] theorem State.setEnc_pins (e : EncState) : (s.setEnc e).pins = s.pins := rfl
@[simp] theorem State.setEnc_bus (e : EncState) : (s.setEnc e).bus = s.bus := rfl
@[simp] theorem State.setEnc_wave (e : EncState) : (s.setEnc e).wave = s.wave := rfl
@[simp] theorem State.setEnc_inputs (e : EncState) : (s.setEnc e).inputs = s.inputs := rfl
@[simp] theorem State.setEnc_draws (e : EncState) : (s.setEnc e).draws = s.draws := rfl

/-! ### `State.setBtn` -/

@[simp] theorem State.setBtn_host (b : BtnState) : (s.setBtn b).host = s.host := rfl
@[simp] theorem State.setBtn_setupDone (b : BtnState) : (s.setBtn b).setupDone = s.setupDone := rfl
@[simp] theorem State.setBtn_params (b : BtnState) : (s.setBtn b).params = s.params := rfl
@[simp] theorem State.setBtn_enc (b : BtnState) : (s.setBtn b).enc = s.enc := rfl
@[simp] theorem State.setBtn_btn (b : BtnState) : (s.setBtn b).btn = b := rfl
@[simp] theorem State.setBtn_pins (b : BtnState) : (s.setBtn b).pins = s.pins := rfl
@[simp] theorem State.setBtn_bus (b : BtnState) : (s.setBtn b).bus = s.bus := rfl
@[simp] theorem State.setBtn_wave (b : BtnState) : (s.setBtn b).wave = s.wave := rfl
@[simp] theorem State.setBtn_inputs (b : BtnState) : (s.setBtn b).inputs = s.inputs := rfl
@[simp] theorem State.setBtn_draws (b : BtnState) : (s.setBtn b).draws = s.draws := rfl

/-! ### `State.drawn` -/

@[simp] theorem State.drawn_host (i : Inputs) : (s.drawn i).host = s.host := rfl
@[simp] theorem State.drawn_setupDone (i : Inputs) : (s.drawn i).setupDone = s.setupDone := rfl
@[simp] theorem State.drawn_params (i : Inputs) : (s.drawn i).params = s.params := rfl
@[simp] theorem State.drawn_enc (i : Inputs) : (s.drawn i).enc = s.enc := rfl
@[simp] theorem State.drawn_btn (i : Inputs) : (s.drawn i).btn = s.btn := rfl
@[simp] theorem State.drawn_pins (i : Inputs) : (s.drawn i).pins = s.pins := rfl
@[simp] theorem State.drawn_bus (i : Inputs) : (s.drawn i).bus = s.bus := rfl
@[simp] theorem State.drawn_wave (i : Inputs) : (s.drawn i).wave = s.wave := rfl
@[simp] theorem State.drawn_inputs (i : Inputs) : (s.drawn i).inputs = i := rfl
@[simp] theorem State.drawn_draws (i : Inputs) : (s.drawn i).draws = s.draws + 1 := rfl

/-! ### `State.respond` -/

@[simp] theorem State.respond_host (v : Config.Response) : (s.respond v).host = s.host := rfl
@[simp] theorem State.respond_setupDone (v : Config.Response) : (s.respond v).setupDone = s.setupDone := rfl
@[simp] theorem State.respond_params (v : Config.Response) : (s.respond v).params = s.params := rfl
@[simp] theorem State.respond_enc (v : Config.Response) : (s.respond v).enc = s.enc := rfl
@[simp] theorem State.respond_btn (v : Config.Response) : (s.respond v).btn = s.btn := rfl
@[simp] theorem State.respond_pins (v : Config.Response) : (s.respond v).pins = { s.pins with rsp := v, rspValid := true, cmdReady := true } := rfl
@[simp] theorem State.respond_bus (v : Config.Response) : (s.respond v).bus = s.bus := rfl
@[simp] theorem State.respond_wave (v : Config.Response) : (s.respond v).wave = s.wave ++ [{ s.pins with rsp := v, rspValid := true, cmdReady := true }] := rfl
@[simp] theorem State.respond_inputs (v : Config.Response) : (s.respond v).inputs = s.inputs := rfl
@[simp] theorem State.respond_draws (v : Config.Response) : (s.respond v).draws = s.draws := rfl

/-! ### `State.accept` -/

@[simp] theorem State.accept_host (r : List HostMove) : (s.accept r).host = r := rfl
@[simp] theorem State.accept_setupDone (r : List HostMove) : (s.accept r).setupDone = s.setupDone := rfl
@[simp] theorem State.accept_params (r : List HostMove) : (s.accept r).params = s.params := rfl
@[simp] theorem State.accept_enc (r : List HostMove) : (s.accept r).enc = s.enc := rfl
@[simp] theorem State.accept_btn (r : List HostMove) : (s.accept r).btn = s.btn := rfl
@[simp] theorem State.accept_pins (r : List HostMove) : (s.accept r).pins = { s.pins with cmdReady := false, rspValid := false } := rfl
@[simp] theorem State.accept_bus (r : List HostMove) : (s.accept r).bus = s.bus := rfl
@[simp] theorem State.accept_wave (r : List HostMove) : (s.accept r).wave = s.wave ++ [{ s.pins with cmdReady := false, rspValid := false }] := rfl
@[simp] theorem State.accept_inputs (r : List HostMove) : (s.accept r).inputs = s.inputs := rfl
@[simp] theorem State.accept_draws (r : List HostMove) : (s.accept r).draws = s.draws := rfl

/-! ### `State.tookTime` -/

@[simp] theorem State.tookTime_host : s.tookTime.host = s.host := rfl
@[simp] theorem State.tookTime_setupDone : s.tookTime.setupDone = s.setupDone := rfl
@[simp] theorem State.tookTime_params : s.tookTime.params = s.params := rfl
@[simp] theorem State.tookTime_enc : s.tookTime.enc = s.enc := rfl
@[simp] theorem State.tookTime_btn : s.tookTime.btn = s.btn := rfl
@[simp] theorem State.tookTime_pins : s.tookTime.pins = s.pins := rfl
@[simp] theorem State.tookTime_bus : s.tookTime.bus = s.bus := rfl
@[simp] theorem State.tookTime_wave : s.tookTime.wave = s.wave := rfl
@[simp] theorem State.tookTime_inputs : s.tookTime.inputs = { s.inputs with time := s.inputs.time.tail } := rfl
@[simp] theorem State.tookTime_draws : s.tookTime.draws = s.draws + 1 := rfl

/-! ### `State.tookMiso` -/

@[simp] theorem State.tookMiso_host : s.tookMiso.host = s.host := rfl
@[simp] theorem State.tookMiso_setupDone : s.tookMiso.setupDone = s.setupDone := rfl
@[simp] theorem State.tookMiso_params : s.tookMiso.params = s.params := rfl
@[simp] theorem State.tookMiso_enc : s.tookMiso.enc = s.enc := rfl
@[simp] theorem State.tookMiso_btn : s.tookMiso.btn = s.btn := rfl
@[simp] theorem State.tookMiso_pins : s.tookMiso.pins = s.pins := rfl
@[simp] theorem State.tookMiso_bus : s.tookMiso.bus = s.bus := rfl
@[simp] theorem State.tookMiso_wave : s.tookMiso.wave = s.wave := rfl
@[simp] theorem State.tookMiso_inputs : s.tookMiso.inputs = { s.inputs with miso := s.inputs.miso.tail } := rfl
@[simp] theorem State.tookMiso_draws : s.tookMiso.draws = s.draws + 1 := rfl

/-! ### `State.txnBegin` -/

@[simp] theorem State.txnBegin_host : s.txnBegin.host = s.host := rfl
@[simp] theorem State.txnBegin_setupDone : s.txnBegin.setupDone = s.setupDone := rfl
@[simp] theorem State.txnBegin_params : s.txnBegin.params = s.params := rfl
@[simp] theorem State.txnBegin_enc : s.txnBegin.enc = s.enc := rfl
@[simp] theorem State.txnBegin_btn : s.txnBegin.btn = s.btn := rfl
@[simp] theorem State.txnBegin_pins : s.txnBegin.pins = { s.pins with busy := true } := rfl
@[simp] theorem State.txnBegin_bus : s.txnBegin.bus = s.bus ++ [.txnBegin] := rfl
@[simp] theorem State.txnBegin_wave : s.txnBegin.wave = s.wave ++ [{ s.pins with busy := true }] := rfl
@[simp] theorem State.txnBegin_inputs : s.txnBegin.inputs = s.inputs := rfl
@[simp] theorem State.txnBegin_draws : s.txnBegin.draws = s.draws := rfl

/-! ### `State.txnEnd` -/

@[simp] theorem State.txnEnd_host : s.txnEnd.host = s.host := rfl
@[simp] theorem State.txnEnd_setupDone : s.txnEnd.setupDone = s.setupDone := rfl
@[simp] theorem State.txnEnd_params : s.txnEnd.params = s.params := rfl
@[simp] theorem State.txnEnd_enc : s.txnEnd.enc = s.enc := rfl
@[simp] theorem State.txnEnd_btn : s.txnEnd.btn = s.btn := rfl
@[simp] theorem State.txnEnd_pins : s.txnEnd.pins = { s.pins with busy := false, mosi := Config.idleMosi s.draws } := rfl
@[simp] theorem State.txnEnd_bus : s.txnEnd.bus = s.bus ++ [.txnEnd] := rfl
@[simp] theorem State.txnEnd_wave : s.txnEnd.wave = s.wave ++ [{ s.pins with busy := false, mosi := Config.idleMosi s.draws }] := rfl
@[simp] theorem State.txnEnd_inputs : s.txnEnd.inputs = s.inputs := rfl
@[simp] theorem State.txnEnd_draws : s.txnEnd.draws = s.draws + 1 := rfl

/-! ### `State.csAssert` -/

@[simp] theorem State.csAssert_host (l : SelectLine) : (s.csAssert l).host = s.host := rfl
@[simp] theorem State.csAssert_setupDone (l : SelectLine) : (s.csAssert l).setupDone = s.setupDone := rfl
@[simp] theorem State.csAssert_params (l : SelectLine) : (s.csAssert l).params = s.params := rfl
@[simp] theorem State.csAssert_enc (l : SelectLine) : (s.csAssert l).enc = s.enc := rfl
@[simp] theorem State.csAssert_btn (l : SelectLine) : (s.csAssert l).btn = s.btn := rfl
@[simp] theorem State.csAssert_pins (l : SelectLine) : (s.csAssert l).pins = { s.pins with csN := s.pins.csN.put false l } := rfl
@[simp] theorem State.csAssert_bus (l : SelectLine) : (s.csAssert l).bus = s.bus ++ [.csLow l] := rfl
@[simp] theorem State.csAssert_wave (l : SelectLine) : (s.csAssert l).wave = s.wave ++ [{ s.pins with csN := s.pins.csN.put false l }] := rfl
@[simp] theorem State.csAssert_inputs (l : SelectLine) : (s.csAssert l).inputs = s.inputs := rfl
@[simp] theorem State.csAssert_draws (l : SelectLine) : (s.csAssert l).draws = s.draws := rfl

/-! ### `State.csDeassert` -/

@[simp] theorem State.csDeassert_host (l : SelectLine) : (s.csDeassert l).host = s.host := rfl
@[simp] theorem State.csDeassert_setupDone (l : SelectLine) : (s.csDeassert l).setupDone = s.setupDone := rfl
@[simp] theorem State.csDeassert_params (l : SelectLine) : (s.csDeassert l).params = s.params := rfl
@[simp] theorem State.csDeassert_enc (l : SelectLine) : (s.csDeassert l).enc = s.enc := rfl
@[simp] theorem State.csDeassert_btn (l : SelectLine) : (s.csDeassert l).btn = s.btn := rfl
@[simp] theorem State.csDeassert_pins (l : SelectLine) : (s.csDeassert l).pins = { s.pins with csN := s.pins.csN.put true l } := rfl
@[simp] theorem State.csDeassert_bus (l : SelectLine) : (s.csDeassert l).bus = s.bus ++ [.csHigh l] := rfl
@[simp] theorem State.csDeassert_wave (l : SelectLine) : (s.csDeassert l).wave = s.wave ++ [{ s.pins with csN := s.pins.csN.put true l }] := rfl
@[simp] theorem State.csDeassert_inputs (l : SelectLine) : (s.csDeassert l).inputs = s.inputs := rfl
@[simp] theorem State.csDeassert_draws (l : SelectLine) : (s.csDeassert l).draws = s.draws := rfl

/-! ### Reads that leave all but the inputs and the count of draws -/

@[simp] theorem State.tookPin_host (i : InPin) : (s.tookPin i).host = s.host := by cases i <;> rfl
@[simp] theorem State.tookPin_setupDone (i : InPin) : (s.tookPin i).setupDone = s.setupDone := by cases i <;> rfl
@[simp] theorem State.tookPin_params (i : InPin) : (s.tookPin i).params = s.params := by cases i <;> rfl
@[simp] theorem State.tookPin_enc (i : InPin) : (s.tookPin i).enc = s.enc := by cases i <;> rfl
@[simp] theorem State.tookPin_btn (i : InPin) : (s.tookPin i).btn = s.btn := by cases i <;> rfl
@[simp] theorem State.tookPin_pins (i : InPin) : (s.tookPin i).pins = s.pins := by cases i <;> rfl
@[simp] theorem State.tookPin_bus (i : InPin) : (s.tookPin i).bus = s.bus := by cases i <;> rfl
@[simp] theorem State.tookPin_wave (i : InPin) : (s.tookPin i).wave = s.wave := by cases i <;> rfl
@[simp] theorem State.tookPin_draws (i : InPin) : (s.tookPin i).draws = s.draws + 1 := by cases i <;> rfl
@[simp] theorem State.tookNative_host (i : NativeIn) : (s.tookNative i).host = s.host := by cases i <;> rfl
@[simp] theorem State.tookNative_setupDone (i : NativeIn) : (s.tookNative i).setupDone = s.setupDone := by cases i <;> rfl
@[simp] theorem State.tookNative_params (i : NativeIn) : (s.tookNative i).params = s.params := by cases i <;> rfl
@[simp] theorem State.tookNative_enc (i : NativeIn) : (s.tookNative i).enc = s.enc := by cases i <;> rfl
@[simp] theorem State.tookNative_btn (i : NativeIn) : (s.tookNative i).btn = s.btn := by cases i <;> rfl
@[simp] theorem State.tookNative_pins (i : NativeIn) : (s.tookNative i).pins = s.pins := by cases i <;> rfl
@[simp] theorem State.tookNative_bus (i : NativeIn) : (s.tookNative i).bus = s.bus := by cases i <;> rfl
@[simp] theorem State.tookNative_wave (i : NativeIn) : (s.tookNative i).wave = s.wave := by cases i <;> rfl
@[simp] theorem State.tookNative_draws (i : NativeIn) : (s.tookNative i).draws = s.draws + 1 := by cases i <;> rfl

@[simp] theorem State.tookPin_encA_inputs :
    (s.tookPin .encA).inputs = { s.inputs with encA := s.inputs.encA.tail } := rfl
@[simp] theorem State.tookPin_encB_inputs :
    (s.tookPin .encB).inputs = { s.inputs with encB := s.inputs.encB.tail } := rfl
@[simp] theorem State.tookPin_btnIn_inputs :
    (s.tookPin .btnIn).inputs = { s.inputs with btnIn := s.inputs.btnIn.tail } := rfl
@[simp] theorem State.tookNative_ain0_inputs :
    (s.tookNative .ain0).inputs = { s.inputs with native0 := s.inputs.native0.tail } := rfl
@[simp] theorem State.tookNative_ain1_inputs :
    (s.tookNative .ain1).inputs = { s.inputs with native1 := s.inputs.native1.tail } := rfl

/-! ### Select lines -/

@[simp] theorem SelectLines.level_put_self (c : SelectLines) (l : SelectLine) (b : Level) :
    (c.put b l).level l = b := by cases l <;> rfl

theorem SelectLines.level_put_other (c : SelectLines) {k l : SelectLine} (b : Level) (h : k ≠ l) :
    (c.put b l).level k = c.level k := by cases k <;> cases l <;> first | rfl | exact absurd rfl h

@[simp] theorem SelectLines.put_put (c : SelectLines) (l : SelectLine) (a b : Level) :
    (c.put a l).put b l = c.put b l := by cases l <;> rfl

@[simp] theorem SelectLines.idle_put_high (l : SelectLine) :
    SelectLines.idle.put true l = SelectLines.idle := by cases l <;> rfl

/-! ### Reset -/

@[simp] theorem State.resetWith_host (a b : Level) : (State.resetWith a b).host = [] := rfl
@[simp] theorem State.resetWith_setupDone (a b : Level) : (State.resetWith a b).setupDone = true := rfl
@[simp] theorem State.resetWith_params (a b : Level) : (State.resetWith a b).params = ⟨a, b⟩ := rfl
@[simp] theorem State.resetWith_enc (a b : Level) : (State.resetWith a b).enc = ⟨a, 0, 0#2⟩ := rfl
@[simp] theorem State.resetWith_btn (a b : Level) : (State.resetWith a b).btn = ⟨b, 0, 0, 0, 0#2⟩ := rfl
@[simp] theorem State.resetWith_pins (a b : Level) : (State.resetWith a b).pins = Pins.reset := rfl
@[simp] theorem State.resetWith_bus (a b : Level) : (State.resetWith a b).bus = [] := rfl
@[simp] theorem State.resetWith_wave (a b : Level) : (State.resetWith a b).wave = [] := rfl
@[simp] theorem State.resetWith_inputs (a b : Level) : (State.resetWith a b).inputs = Inputs.none := rfl
@[simp] theorem State.resetWith_draws (a b : Level) : (State.resetWith a b).draws = 0 := rfl

end Sys2Proof.Machine
end

