-- ==== Sys2Proof/Laws/Ops.lean ====
section
/-! SUPPORT. One lemma per shared operation that says once everything it does; later proofs cite it instead of unfolding
the operation. -/

namespace Sys2Proof.Machine

/-! ### Bits -/

@[simp] theorem length_bitsMsb {n : Nat} (v : BitVec n) : (bitsMsb v).length = n := by simp [bitsMsb]

/-- A sample of `MISO` moves the later ones up by one. -/
@[simp] theorem misoAt_tookMiso (s : State) (k : Nat) : s.tookMiso.misoAt k = s.misoAt (k + 1) := by
  cases h : s.inputs.miso <;> simp [State.misoAt, h, Nat.add_comm, Nat.add_left_comm]

/-- What `MISO` gives depends only on the inputs and the count of draws. -/
theorem misoAt_congr {s t : State} (hi : t.inputs = s.inputs) (hd : t.draws = s.draws) (k : Nat) :
    t.misoAt k = s.misoAt k := by simp [State.misoAt, hi, hd]

theorem misoByte_congr {s t : State} (hi : t.inputs = s.inputs) (hd : t.draws = s.draws) (k : Nat) :
    t.misoByte k = s.misoByte k := by simp [State.misoByte, misoAt_congr hi hd]

/-- The state after `n` samples of `MISO`, everything but the inputs and the count as it was. -/
def State.sampled (s : State) (n : Nat) : State :=
  { s with inputs := { s.inputs with miso := s.inputs.miso.drop n }, draws := s.draws + n }

/-- The state after bits were clocked out, everything but the pins and their record as it was. -/
def State.clocked (s : State) (bs : List Level) : State :=
  { s with pins := pinsAfterBits s.pins bs, wave := s.wave ++ pulses s.pins bs }

@[simp] theorem State.sampled_host (s : State) (n : Nat) : (s.sampled n).host = s.host := rfl
@[simp] theorem State.sampled_setupDone (s : State) (n : Nat) : (s.sampled n).setupDone = s.setupDone := rfl
@[simp] theorem State.sampled_params (s : State) (n : Nat) : (s.sampled n).params = s.params := rfl
@[simp] theorem State.sampled_enc (s : State) (n : Nat) : (s.sampled n).enc = s.enc := rfl
@[simp] theorem State.sampled_btn (s : State) (n : Nat) : (s.sampled n).btn = s.btn := rfl
@[simp] theorem State.sampled_pins (s : State) (n : Nat) : (s.sampled n).pins = s.pins := rfl
@[simp] theorem State.sampled_bus (s : State) (n : Nat) : (s.sampled n).bus = s.bus := rfl
@[simp] theorem State.sampled_wave (s : State) (n : Nat) : (s.sampled n).wave = s.wave := rfl
@[simp] theorem State.sampled_inputs (s : State) (n : Nat) : (s.sampled n).inputs = { s.inputs with miso := s.inputs.miso.drop n } := rfl
@[simp] theorem State.sampled_draws (s : State) (n : Nat) : (s.sampled n).draws = s.draws + n := rfl

@[simp] theorem State.clocked_host (s : State) (bs : List Level) : (s.clocked bs).host = s.host := rfl
@[simp] theorem State.clocked_setupDone (s : State) (bs : List Level) : (s.clocked bs).setupDone = s.setupDone := rfl
@[simp] theorem State.clocked_params (s : State) (bs : List Level) : (s.clocked bs).params = s.params := rfl
@[simp] theorem State.clocked_enc (s : State) (bs : List Level) : (s.clocked bs).enc = s.enc := rfl
@[simp] theorem State.clocked_btn (s : State) (bs : List Level) : (s.clocked bs).btn = s.btn := rfl
@[simp] theorem State.clocked_pins (s : State) (bs : List Level) : (s.clocked bs).pins = pinsAfterBits s.pins bs := rfl
@[simp] theorem State.clocked_bus (s : State) (bs : List Level) : (s.clocked bs).bus = s.bus := rfl
@[simp] theorem State.clocked_wave (s : State) (bs : List Level) : (s.clocked bs).wave = s.wave ++ pulses s.pins bs := rfl
@[simp] theorem State.clocked_inputs (s : State) (bs : List Level) : (s.clocked bs).inputs = s.inputs := rfl
@[simp] theorem State.clocked_draws (s : State) (bs : List Level) : (s.clocked bs).draws = s.draws := rfl

/-! What `MISO` gives is not changed by what the block drives or records. -/

@[simp] theorem misoAt_clocked (s : State) (bs : List Level) (k : Nat) : (s.clocked bs).misoAt k = s.misoAt k :=
  misoAt_congr rfl rfl k
@[simp] theorem misoAt_emit (s : State) (e : BusEvent) (k : Nat) : (s.emit e).misoAt k = s.misoAt k :=
  misoAt_congr rfl rfl k
@[simp] theorem misoAt_csAssert (s : State) (l : SelectLine) (k : Nat) : (s.csAssert l).misoAt k = s.misoAt k :=
  misoAt_congr rfl rfl k
@[simp] theorem misoAt_txnBegin (s : State) (k : Nat) : s.txnBegin.misoAt k = s.misoAt k :=
  misoAt_congr rfl rfl k
@[simp] theorem misoAt_driveMosi (s : State) (b : Level) (k : Nat) : (s.driveMosi b).misoAt k = s.misoAt k :=
  misoAt_congr rfl rfl k
@[simp] theorem misoAt_sckRise (s : State) (k : Nat) : s.sckRise.misoAt k = s.misoAt k :=
  misoAt_congr rfl rfl k
@[simp] theorem misoAt_sckFall (s : State) (k : Nat) : s.sckFall.misoAt k = s.misoAt k :=
  misoAt_congr rfl rfl k

@[simp] theorem misoAt_sampled (s : State) (n k : Nat) : (s.sampled n).misoAt k = s.misoAt (n + k) := by
  simp [State.misoAt, Nat.add_assoc]

@[simp] theorem misoByte_clocked (s : State) (bs : List Level) (k : Nat) : (s.clocked bs).misoByte k = s.misoByte k :=
  misoByte_congr rfl rfl k
@[simp] theorem misoByte_emit (s : State) (e : BusEvent) (k : Nat) : (s.emit e).misoByte k = s.misoByte k :=
  misoByte_congr rfl rfl k
@[simp] theorem misoByte_csAssert (s : State) (l : SelectLine) (k : Nat) : (s.csAssert l).misoByte k = s.misoByte k :=
  misoByte_congr rfl rfl k
@[simp] theorem misoByte_txnBegin (s : State) (k : Nat) : s.txnBegin.misoByte k = s.misoByte k :=
  misoByte_congr rfl rfl k

@[simp] theorem misoByte_sampled (s : State) (n k : Nat) : (s.sampled n).misoByte k = s.misoByte (n + k) := by
  simp [State.misoByte, Nat.add_assoc]

/-! ### Transfers -/

/-- Everything an exchange of bits does (R60). -/
theorem exchangeBits_eq (s : State) (bs : List Level) :
    s.exchangeBits bs =
      ((List.range bs.length).map s.misoAt, (s.sampled bs.length).clocked bs) := by
  induction bs generalizing s with
  | nil => simp [State.exchangeBits, State.sampled, State.clocked, pinsAfterBits, pulses]
  | cons b bs ih =>
    simp only [State.exchangeBits, ih]
    refine Prod.ext ?_ ?_
    · simp [List.range_succ_eq_map, Function.comp_def]
    · simp [State.sampled, State.clocked, pinsAfterBits, pulses, State.driveMosi, State.sckRise, State.sckFall,
        State.tookMiso, State.drive, State.drawn, Nat.add_comm, Nat.add_left_comm]

/-- Everything a transfer without reception does (R61). -/
theorem sendBits_eq (s : State) (bs : List Level) : s.sendBits bs = s.clocked bs := by
  induction bs generalizing s with
  | nil => simp [State.sendBits, State.clocked, pinsAfterBits, pulses]
  | cons b bs ih =>
    simp [State.sendBits, ih, State.clocked, pinsAfterBits, pulses, State.driveMosi, State.sckRise, State.sckFall,
      State.drive]

/-- Everything `SpiXfer8` does: it gives the byte of the next eight samples (R60). -/
theorem spiXfer8_eq (s : State) (m : Byte) :
    s.spiXfer8 m = (s.misoByte 0, ((s.sampled 8).clocked (bitsMsb m)).emit (.byte m (s.misoByte 0))) := by
  simp [State.spiXfer8, exchangeBits_eq, State.misoByte]

/-- Everything `SpiXfer16` does (R61). -/
theorem spiXfer16_eq (s : State) (w : Half) :
    s.spiXfer16 w = (s.clocked (bitsMsb w)).emit (.word16 w) := by
  simp [State.spiXfer16, sendBits_eq]

/-- Only `MOSI` and `SCK` move while bits are clocked out. -/
theorem pinsAfterBits_eq (p : Pins) (b : Level) (bs : List Level) :
    pinsAfterBits p (b :: bs) = { p with mosi := ((b :: bs).getLast (by simp)), sck := false } := by
  induction bs generalizing p b with
  | nil => rfl
  | cons c cs ih => rw [pinsAfterBits, ih]; simp

/-- The bits clocked out are the bits sent, one pulse each, when the clock starts low (R60). -/
theorem clockedOut_pulses (p : Pins) (bs : List Level) (ps : List Pins) (h : p.sck = false) :
    clockedOut false (pulses p bs ++ ps) = bs ++ clockedOut false ps := by
  induction bs generalizing p with
  | nil => simp [pulses]
  | cons b bs ih => simp [pulses, clockedOut, h, ih]

/-- Every level of the pins while bits are clocked out differs from the start in `MOSI` and `SCK` at most. -/
theorem mem_pulses {p q : Pins} {bs : List Level} (h : q ∈ pulses p bs) :
    ∃ b c, q = { p with mosi := b, sck := c } := by
  induction bs generalizing p with
  | nil => simp [pulses] at h
  | cons b bs ih =>
    simp only [pulses, List.mem_cons] at h
    obtain rfl | rfl | rfl | h := h
    · exact ⟨b, p.sck, rfl⟩
    · exact ⟨b, true, rfl⟩
    · exact ⟨b, false, rfl⟩
    · obtain ⟨b', c', rfl⟩ := ih h
      exact ⟨b', c', rfl⟩

/-! ### Transactions -/

/-- The levels of the pins over a transaction that clocks out `bs` under line `l` and leaves `MOSI` at `m`. -/
def txnWave (p : Pins) (l : SelectLine) (bs : List Level) (m : Level) : List Pins :=
  let p1 := { p with busy := true }
  let p2 := { p1 with csN := p.csN.put false l }
  let p3 := pinsAfterBits p2 bs
  let p4 := { p3 with csN := p3.csN.put true l }
  p1 :: p2 :: (pulses p2 bs ++ [p4, { p4 with busy := false, mosi := m }])

theorem pulses_append (p : Pins) (as bs : List Level) :
    pulses p (as ++ bs) = pulses p as ++ pulses (pinsAfterBits p as) bs := by
  induction as generalizing p with
  | nil => rfl
  | cons a as ih => simp [pulses, pinsAfterBits, ih]

theorem pinsAfterBits_append (p : Pins) (as bs : List Level) :
    pinsAfterBits p (as ++ bs) = pinsAfterBits (pinsAfterBits p as) bs := by
  induction as generalizing p with
  | nil => rfl
  | cons a as ih => simp [pinsAfterBits, ih]

/-- The 24 bits of an ADC frame in the order they are sent (R91). -/
def adcFrameBits (ch : BitVec 3) : List Level :=
  bitsMsb Config.adcStartByte ++ (bitsMsb (adcCommandByte ch) ++ bitsMsb Config.adcDummyByte)

/-- After bits were clocked out, the pins differ from the start in `MOSI` and `SCK` only, and the clock is low where
there was a bit. -/
theorem pinsAfterBits_frame (p : Pins) (bs : List Level) (h : bs ≠ []) :
    ∃ m, pinsAfterBits p bs = { p with mosi := m, sck := false } := by
  cases bs with
  | nil => exact absurd rfl h
  | cons b bs => exact ⟨_, pinsAfterBits_eq p b bs⟩

theorem bitsMsb_ne_nil {n : Nat} (v : BitVec (n + 1)) : bitsMsb v ≠ [] := by
  intro h
  have := congrArg List.length h
  simp at this

/-- Everything an ADC transaction does (R110, R112). -/
theorem adcFrame_eq (s : State) (l : SelectLine) (ch : BitVec 3) :
    s.adcFrame l ch =
      (adcResult (s.misoByte 8) (s.misoByte 16),
        { s with
          pins :=
            { s.pins with
              csN := s.pins.csN.put true l
              sck := false
              busy := false
              mosi := Config.idleMosi (s.draws + 24) }
          wave := s.wave ++ txnWave s.pins l (adcFrameBits ch) (Config.idleMosi (s.draws + 24))
          bus := s.bus ++
            [.txnBegin, .csLow l, .byte Config.adcStartByte (s.misoByte 0),
              .byte (adcCommandByte ch) (s.misoByte 8), .byte Config.adcDummyByte (s.misoByte 16), .csHigh l, .txnEnd]
          inputs := { s.inputs with miso := s.inputs.miso.drop 24 }
          draws := s.draws + 25 }) := by
  obtain ⟨m, hm⟩ := pinsAfterBits_frame
    { s.pins with busy := true, csN := s.pins.csN.put false l } (adcFrameBits ch)
    (by simp [adcFrameBits, bitsMsb_ne_nil])
  simp only [adcFrameBits, pinsAfterBits_append] at hm
  simp only [State.adcFrame, spiXfer8_eq]
  refine Prod.ext (by simp) (State.ext ?_ ?_ ?_ ?_ ?_ ?_ ?_ ?_ ?_ ?_) <;>
    simp [txnWave, adcFrameBits, pulses_append, pinsAfterBits_append, hm]

/-- Everything a DAC transaction does (R115, R117). -/
theorem dacFrame_eq (s : State) (l : SelectLine) (w : Half) :
    s.dacFrame l w =
      { s with
        pins :=
          { s.pins with
            csN := s.pins.csN.put true l
            sck := false
            busy := false
            mosi := Config.idleMosi s.draws }
        wave := s.wave ++ txnWave s.pins l (bitsMsb w) (Config.idleMosi s.draws)
        bus := s.bus ++ [.txnBegin, .csLow l, .word16 w, .csHigh l, .txnEnd]
        draws := s.draws + 1 } := by
  obtain ⟨m, hm⟩ := pinsAfterBits_frame
    { s.pins with busy := true, csN := s.pins.csN.put false l } (bitsMsb w) (bitsMsb_ne_nil w)
  simp only [State.dacFrame, spiXfer16_eq]
  refine State.ext ?_ ?_ ?_ ?_ ?_ ?_ ?_ ?_ ?_ ?_ <;> simp [txnWave, hm]

end Sys2Proof.Machine
end

