-- ==== Sys2Proof/Laws/Commands.lean ====
section
/-! SUPPORT. What the bodies of the commands do, case by case, in terms of the shared operations; and what one step can
do. Later proofs cite these instead of unfolding the bodies. -/

namespace Sys2Proof.Machine

/-! ### Wire formats -/

/-- The command byte by R112's formula. -/
theorem adcCommandByte_eq {ch : Nat} (h : ch ≤ 7) :
    adcCommandByte (adcLocal ch) = 0x80#8 ||| (BitVec.ofNat 8 ch <<< 4) := by
  interval_cases ch <;> rfl

/-- The answer of a read by R92's formula. -/
theorem readResponse_adcResult (r2 r3 : Byte) : readResponse (adcResult r2 r3) = adcAnswer r2 r3 := by
  refine BitVec.eq_of_getLsbD_eq fun i hi => ?_
  interval_cases i <;> simp [readResponse, adcResult, adcAnswer, Config.adcResultW]

theorem readResponse_le (v : BitVec Config.adcResultW) : (readResponse v).toNat ≤ 1023 := by
  have : v.toNat < 2 ^ 10 := v.isLt
  simp only [readResponse, BitVec.toNat_setWidth, Config.rspW]
  exact (Nat.mod_le _ _).trans (Nat.le_of_lt_succ this)

theorem readResponse_ne_invalid (v : BitVec Config.adcResultW) : readResponse v ≠ Config.invalid := by
  intro h
  have := readResponse_le v
  rw [h] at this
  exact absurd this (by decide)

/-- The bits of a byte received (R60). -/
theorem byteOfBits_getLsbD (f : Nat → Level) {k : Nat} (h : k < 8) :
    (byteOfBits ((List.range 8).map f)).getLsbD k = f (7 - k) := by
  interval_cases k <;> simp [byteOfBits, List.range_succ]

theorem misoByte_getLsbD (s : State) (n : Nat) {k : Nat} (h : k < 8) :
    (s.misoByte n).getLsbD k = s.misoAt (n + (7 - k)) := byteOfBits_getLsbD _ h

/-- The bits of the transfers, in the order sent. -/
theorem bitsMsb_eq {n : Nat} (v : BitVec n) : bitsMsb v = (List.range n).map (fun k => v.getLsbD (n - 1 - k)) := by
  refine List.map_congr_left fun k hk => ?_
  rw [BitVec.getMsbD_eq_getLsbD, decide_eq_true (List.mem_range.mp hk), Bool.true_and]

/-! ### Answers without an effect -/

theorem respond_answeredOnly (s : State) (v : Config.Response) : s.answeredOnly (s.respond v) v := by
  simp [State.answeredOnly]

@[simp] theorem respond_responded (s : State) (v : Config.Response) : (s.respond v).responded v := by simp [State.responded]

/-! ### The framer -/

theorem readConverter_inRange (s : State) (l : SelectLine) {ch : Nat} (h : ch ≤ 7) :
    s.readConverter l ch =
      (s.adcFrame l (adcLocal ch)).2.respond (readResponse (s.adcFrame l (adcLocal ch)).1) := by
  simp [State.readConverter, Config.adcChCount, Nat.lt_succ_of_le h]

theorem readConverter_outOfRange (s : State) (l : SelectLine) {ch : Nat} (h : 8 ≤ ch) :
    s.readConverter l ch = s.respond Config.invalid := by
  simp [State.readConverter, Config.adcChCount, Nat.not_lt.mpr h]

theorem writeConverter_inRange (s : State) (l : SelectLine) {ch : Nat} (val : Nat) (h : ch ≤ 1) :
    s.writeConverter l ch val = (s.dacFrame l (dacWord (Config.dacCfg ch) val)).respond 0#16 := by
  simp [State.writeConverter, Config.dacChCount, Nat.lt_succ_of_le h]

theorem writeConverter_outOfRange (s : State) (l : SelectLine) {ch : Nat} (val : Nat) (h : 2 ≤ ch) :
    s.writeConverter l ch val = s.respond 0#16 := by
  simp [State.writeConverter, Config.dacChCount, Nat.not_lt.mpr h]

/-- Every level of the pins over a transaction: the select line and the marker move, `MOSI` and `SCK` may. -/
theorem mem_txnWave {p q : Pins} {l : SelectLine} {bs : List Level} {m : Level} (hb : bs ≠ [])
    (h : q ∈ txnWave p l bs m) :
    q = { p with busy := true } ∨
    (∃ a b, q = { p with busy := true, csN := p.csN.put false l, sck := a, mosi := b }) ∨
    (∃ b c, q = { p with busy := c, csN := p.csN.put true l, sck := false, mosi := b }) := by
  obtain ⟨x, hx⟩ := pinsAfterBits_frame { p with busy := true, csN := p.csN.put false l } bs hb
  simp only [txnWave, hx, List.mem_cons, List.mem_append, List.not_mem_nil, or_false] at h
  rcases h with rfl | rfl | h | rfl | rfl
  · exact .inl rfl
  · exact .inr (.inl ⟨p.sck, p.mosi, rfl⟩)
  · obtain ⟨b, c, rfl⟩ := mem_pulses h
    exact .inr (.inl ⟨c, b, rfl⟩)
  · exact .inr (.inr ⟨x, true, by simp⟩)
  · exact .inr (.inr ⟨m, false, by simp⟩)

/-- What the device samples over a transaction, the clock low before it (R57, R60). -/
theorem clockedOut_txnWave (p : Pins) (l : SelectLine) (bs : List Level) (m : Level) (ps : List Pins)
    (hb : bs ≠ []) (h : p.sck = false) :
    clockedOut false (txnWave p l bs m ++ ps) = bs ++ clockedOut false ps := by
  obtain ⟨x, hx⟩ := pinsAfterBits_frame { p with busy := true, csN := p.csN.put false l } bs hb
  simp only [txnWave, hx, List.cons_append, List.append_assoc]
  simp [clockedOut, h, clockedOut_pulses]

/-! ### The router -/

theorem analogRoute_adcA {ch : Nat} (h : ch ≤ 7) : analogRoute ch = some (.converter .adcA ch) := by
  simp [analogRoute, Config.analogChCount, Config.adcChCount, show ¬ 18 ≤ ch by omega, show ch < 8 by omega]

theorem analogRoute_adcB {ch : Nat} (h : 8 ≤ ch) (h' : ch ≤ 15) :
    analogRoute ch = some (.converter .adcB (ch - 8)) := by
  simp [analogRoute, Config.analogChCount, Config.adcChCount, show ¬ 18 ≤ ch by omega, show ¬ ch < 8 by omega,
    show ch < 16 by omega]

theorem analogRoute_ain0 : analogRoute 16 = some (.native .ain0) := rfl

theorem analogRoute_ain1 : analogRoute 17 = some (.native .ain1) := rfl

theorem analogRoute_none {ch : Nat} (h : 18 ≤ ch) : analogRoute ch = none := by
  simp [analogRoute, Config.analogChCount, h]

/-- Every route to a converter has a device-local channel that the framer accepts (R131). -/
theorem analogRoute_local {ch dch : Nat} {l : SelectLine} (h : analogRoute ch = some (.converter l dch)) : dch ≤ 7 := by
  have hc : Config.adcChCount = 8 := rfl
  unfold analogRoute at h
  split_ifs at h <;> cases h <;> omega

theorem cvRoute_dacA {ch : Nat} (h : ch ≤ 1) : cvRoute ch = some (.dacA, ch) := by
  simp [cvRoute, Config.cvChCount, Config.dacChCount, show ¬ 4 ≤ ch by omega, show ch < 2 by omega]

theorem cvRoute_dacB {ch : Nat} (h : 2 ≤ ch) (h' : ch ≤ 3) : cvRoute ch = some (.dacB, ch - 2) := by
  simp [cvRoute, Config.cvChCount, Config.dacChCount, show ¬ 4 ≤ ch by omega, show ¬ ch < 2 by omega,
    show ch < 4 by omega]

/-- Every CV route has a device-local channel that the framer accepts (R136). -/
theorem cvRoute_local {ch dch : Nat} {l : SelectLine} (h : cvRoute ch = some (l, dch)) : dch ≤ 1 := by
  have hc : Config.dacChCount = 2 := rfl
  unfold cvRoute at h
  split_ifs at h <;> cases h <;> omega

theorem cvRoute_none {ch : Nat} (h : 4 ≤ ch) : cvRoute ch = none := by simp [cvRoute, Config.cvChCount, h]

/-! ### The polls -/

/-! The responses of the polls as the numbers of R85. -/

@[simp] theorem tickResponse_none : tickResponse tickNone = 0x0000#16 := rfl
@[simp] theorem tickResponse_up : tickResponse tickUp = 0x0001#16 := rfl
@[simp] theorem tickResponse_down : tickResponse tickDown = 0xFFFF#16 := rfl
@[simp] theorem resultResponse_none : resultResponse resultNone = 0x0000#16 := rfl
@[simp] theorem resultResponse_short : resultResponse resultShort = 0x0001#16 := rfl
@[simp] theorem resultResponse_long : resultResponse resultLong = 0x0002#16 := rfl

/-- The time ENCPOLL's gate measures from is the one the wrap rule leaves (R151). -/
theorem wrapRule_eq_encBase (s : State) : wrapRule s.timeNow s.enc.lastPoll = s.encBase := rfl

/-- A time gate as a comparison of times (R152, R172). -/
theorem gateOpen_eq {least : Nat} (now last : Time) (h : least < 2 ^ 32) :
    gateOpen least now last = decide (BitVec.ofNat 32 least ≤ now - last) := by
  simp [gateOpen, BitVec.le_def, Config.timeW, Nat.mod_eq_of_lt (show least < 4294967296 from h)]

/-- ENCPOLL with the gate shut (R152, R153). -/
theorem encPoll_gateShut (s : State) (h : s.timeNow - s.encBase < 3#32) :
    s.encPoll =
      (s.tookTime.setEnc { prevA := s.enc.prevA, lastPoll := s.encBase, tick := tickNone }).respond 0#16 := by
  have hg : gateOpen Config.encPollMin s.timeNow s.encBase = false := by
    rw [Config.encPollMin, gateOpen_eq _ _ (by decide), decide_eq_false_iff_not]; exact BitVec.not_le.mpr h
  simp only [State.encPoll, State.encStart, State.setEnc_enc, wrapRule_eq_encBase, hg]
  rfl

/-- ENCPOLL with the gate open (R154, R155). -/
theorem encPoll_gateOpen (s : State) (h : 3#32 ≤ s.timeNow - s.encBase) :
    s.encPoll =
      (((s.tookTime.tookPin .encA).tookPin .encB).setEnc
        { prevA := s.tookTime.pinRead .encA
          lastPoll := s.timeNow
          tick := tickOf s.enc.prevA (s.tookTime.pinRead .encA) ((s.tookTime.tookPin .encA).pinRead .encB) }).respond
        (tickResponse (tickOf s.enc.prevA (s.tookTime.pinRead .encA)
          ((s.tookTime.tookPin .encA).pinRead .encB))) := by
  have hg : gateOpen Config.encPollMin s.timeNow s.encBase = true := by
    rw [Config.encPollMin, gateOpen_eq _ _ (by decide), decide_eq_true_iff]; exact h
  simp only [State.encPoll, State.encStart, State.setEnc_enc, wrapRule_eq_encBase, hg]
  rfl

/-- BTNPOLL with the gate shut (R172). -/
theorem btnPoll_gateShut (s : State) (h : s.timeNow - s.btn.lastPoll < 50#32) :
    s.btnPoll = (s.tookTime.setBtn { s.btn with result := resultNone }).respond 0#16 := by
  have hg : gateOpen Config.btnPollMin s.timeNow s.btn.lastPoll = false := by
    rw [Config.btnPollMin, gateOpen_eq _ _ (by decide), decide_eq_false_iff_not]; exact BitVec.not_le.mpr h
  simp only [State.btnPoll, State.btnStart, State.setBtn_btn, hg]
  rfl

/-- BTNPOLL with the gate open (R173 to R176). -/
theorem btnPoll_gateOpen (s : State) (h : 50#32 ≤ s.timeNow - s.btn.lastPoll) :
    s.btnPoll =
      ((s.tookTime.tookPin .btnIn).setBtn
        (({ s.btn with result := resultNone } : BtnState).sampled (s.tookTime.pinRead .btnIn) s.timeNow)).respond
        (resultResponse
          (({ s.btn with result := resultNone } : BtnState).sampled (s.tookTime.pinRead .btnIn) s.timeNow).result) := by
  have hg : gateOpen Config.btnPollMin s.timeNow s.btn.lastPoll = true := by
    rw [Config.btnPollMin, gateOpen_eq _ _ (by decide), decide_eq_true_iff]; exact h
  simp only [State.btnPoll, State.btnStart, State.setBtn_btn, hg]
  rfl

/-! ### The step -/

/-- Everything a step that goes on can have been. -/
theorem step_cases {s t : State} (h : step s = .next t) :
    (s.host = [] ∧ t = s) ∨
    (∃ rest, s.host = .setUp :: rest ∧ t = s.setUpEvent rest) ∨
    (∃ rest, s.host = .rst :: rest ∧ s.pins.cmdReady = true ∧ t = s.resetEvent rest) ∨
    (∃ w rest, s.host = .command w :: rest ∧ s.setupDone = true ∧ s.pins.cmdReady = true ∧
      ((∃ i, decode w = .ok i ∧ exec i (s.accept rest) = .next t) ∨
        ((∃ r, decode w = .error r) ∧ t = (s.accept rest).illegalCommand))) := by
  unfold step at h
  split at h
  · rename_i hh
    exact .inl ⟨hh, by cases h; rfl⟩
  · rename_i rest hh
    exact .inr (.inl ⟨rest, hh, by cases h; rfl⟩)
  · rename_i rest hh
    cases hc : s.pins.cmdReady
    · simp [pulseReset, State.barsReset, hc] at h
    · simp only [pulseReset, State.barsReset, hc] at h
      exact .inr (.inr (.inl ⟨rest, hh, rfl, by cases h; rfl⟩))
  · rename_i w rest hh
    cases hs : s.setupDone
    · simp [presentCommand, State.barsCommand, hs] at h
    cases hc : s.pins.cmdReady
    · simp [presentCommand, State.barsCommand, hs, hc] at h
    simp only [presentCommand, State.barsCommand, hs, hc, runCommand] at h
    refine .inr (.inr (.inr ⟨w, rest, hh, rfl, rfl, ?_⟩))
    cases hd : decode w with
    | ok i => rw [hd] at h; exact .inl ⟨i, rfl, h⟩
    | error r => rw [hd] at h; exact .inr ⟨⟨r, rfl⟩, by cases h; rfl⟩

end Sys2Proof.Machine
end

