-- ==== Sys2Proof/Laws/Decode.lean ====
section
/-! SUPPORT. The fields of a command word, what each row of the opcode map says of them, and the decoder said once in
terms of the fields. -/

namespace Sys2Proof

/-! ### Select lines -/

@[simp] theorem selOf_selCode (l : SelectLine) : selOf (selCode l) = l := by cases l <;> rfl

@[simp] theorem selCode_selOf (b : BitVec 2) : selCode (selOf b) = b := by revert b; decide

/-! ### The fields of a packed word -/

section
variable (op : BitVec 4) (sel : BitVec 2) (ch : BitVec 8) (val : BitVec 16)

@[simp] theorem opField_cmd32 : opField (cmd32 op sel ch val) = op := by
  simp only [opField, cmd32]; ext i hi; interval_cases i <;> simp

@[simp] theorem selField_cmd32 : selField (cmd32 op sel ch val) = sel := by
  simp only [selField, cmd32]; ext i hi; interval_cases i <;> simp

@[simp] theorem rsvField_cmd32 : rsvField (cmd32 op sel ch val) = 0#2 := by
  simp only [rsvField, cmd32]; ext i hi; interval_cases i <;> simp

@[simp] theorem chField_cmd32 : chField (cmd32 op sel ch val) = ch := by
  simp only [chField, cmd32]; ext i hi; interval_cases i <;> simp

@[simp] theorem valField_cmd32 : valField (cmd32 op sel ch val) = val := by
  simp only [valField, cmd32]; ext i hi; interval_cases i <;> simp

end

/-- A word whose reserved bits are zero is packed from its fields. -/
theorem cmd32_fields (c : Word) (h : rsvField c = 0#2) :
    cmd32 (opField c) (selField c) (chField c) (valField c) = c := by
  have h24 : c.getLsbD 24 = false := by simpa [rsvField] using congrArg (·.getLsbD 0) h
  have h25 : c.getLsbD 25 = false := by simpa [rsvField] using congrArg (·.getLsbD 1) h
  simp only [cmd32, opField, selField, chField, valField]
  ext i hi
  interval_cases i <;> simp_all

/-! ### The rows of the opcode map -/

/-- Two words are equal when all their bits are. -/
theorem word_eq_iff (x y : Word) : x = y ↔ ∀ i : Fin 32, x.getLsbD i = y.getLsbD i := by
  refine ⟨fun h _ => h ▸ rfl, fun h => BitVec.eq_of_getLsbD_eq fun i hi => h ⟨i, hi⟩⟩

/-- A field has a value when all its bits are the value's. -/
theorem field_eq_iff {n : Nat} (k : Nat) (c : Word) (v : BitVec n) :
    c.extractLsb' k n = v ↔ ∀ i : Fin n, c.getLsbD (k + i) = v.getLsbD i := by
  refine ⟨fun h i => by simp [← h, i.isLt], fun h => BitVec.eq_of_getLsbD_eq fun i hi => ?_⟩
  simpa [hi] using h ⟨i, hi⟩

theorem hits_rdconv (c : Word) : c &&& 0xF300FFFF#32 = 0x10000000#32 ↔
    opField c = 1#4 ∧ rsvField c = 0#2 ∧ valField c = 0#16 := by
  simp only [opField, rsvField, valField, field_eq_iff, word_eq_iff]
  simp [Fin.forall_fin_succ]
  tauto

theorem hits_wrconv (c : Word) : c &&& 0xF3000000#32 = 0x20000000#32 ↔ opField c = 2#4 ∧ rsvField c = 0#2 := by
  simp only [opField, rsvField, field_eq_iff, word_eq_iff]
  simp [Fin.forall_fin_succ]
  tauto

theorem hits_rdanalog (c : Word) : c &&& 0xFF00FFFF#32 = 0x30000000#32 ↔
    opField c = 3#4 ∧ selField c = 0#2 ∧ rsvField c = 0#2 ∧ valField c = 0#16 := by
  simp only [opField, selField, rsvField, valField, field_eq_iff, word_eq_iff]
  simp [Fin.forall_fin_succ]
  tauto

theorem hits_wrcv (c : Word) : c &&& 0xFF000000#32 = 0x40000000#32 ↔
    opField c = 4#4 ∧ selField c = 0#2 ∧ rsvField c = 0#2 := by
  simp only [opField, selField, rsvField, field_eq_iff, word_eq_iff]
  simp [Fin.forall_fin_succ]
  tauto

theorem hits_encpoll (c : Word) : c &&& 0xFFFFFFFF#32 = 0x50000000#32 ↔
    opField c = 5#4 ∧ selField c = 0#2 ∧ rsvField c = 0#2 ∧ chField c = 0#8 ∧ valField c = 0#16 := by
  simp only [opField, selField, rsvField, chField, valField, field_eq_iff, word_eq_iff]
  simp [Fin.forall_fin_succ]
  tauto

theorem hits_btnpoll (c : Word) : c &&& 0xFFFFFFFF#32 = 0x60000000#32 ↔
    opField c = 6#4 ∧ selField c = 0#2 ∧ rsvField c = 0#2 ∧ chField c = 0#8 ∧ valField c = 0#16 := by
  simp only [opField, selField, rsvField, chField, valField, field_eq_iff, word_eq_iff]
  simp [Fin.forall_fin_succ]
  tauto

/-- Whether a word is a row's command, as a comparison (R82). -/
theorem OpcodeRow.hits_eq (r : OpcodeRow) (c : Word) : r.hits c = decide (c &&& r.mask = r.pattern) := by
  by_cases h : c &&& r.mask = r.pattern <;> simp [OpcodeRow.hits, h]

theorem rowRdconv_hits (c : Word) : rowRdconv.hits c = decide
    (opField c = 1#4 ∧ rsvField c = 0#2 ∧ valField c = 0#16) := by
  rw [OpcodeRow.hits_eq, decide_eq_decide]; exact hits_rdconv c

theorem rowWrconv_hits (c : Word) : rowWrconv.hits c = decide
    (opField c = 2#4 ∧ rsvField c = 0#2) := by
  rw [OpcodeRow.hits_eq, decide_eq_decide]; exact hits_wrconv c

theorem rowRdanalog_hits (c : Word) : rowRdanalog.hits c = decide
    (opField c = 3#4 ∧ selField c = 0#2 ∧ rsvField c = 0#2 ∧ valField c = 0#16) := by
  rw [OpcodeRow.hits_eq, decide_eq_decide]; exact hits_rdanalog c

theorem rowWrcv_hits (c : Word) : rowWrcv.hits c = decide
    (opField c = 4#4 ∧ selField c = 0#2 ∧ rsvField c = 0#2) := by
  rw [OpcodeRow.hits_eq, decide_eq_decide]; exact hits_wrcv c

theorem rowEncpoll_hits (c : Word) : rowEncpoll.hits c = decide
    (opField c = 5#4 ∧ selField c = 0#2 ∧ rsvField c = 0#2 ∧ chField c = 0#8 ∧ valField c = 0#16) := by
  rw [OpcodeRow.hits_eq, decide_eq_decide]; exact hits_encpoll c

theorem rowBtnpoll_hits (c : Word) : rowBtnpoll.hits c = decide
    (opField c = 6#4 ∧ selField c = 0#2 ∧ rsvField c = 0#2 ∧ chField c = 0#8 ∧ valField c = 0#16) := by
  rw [OpcodeRow.hits_eq, decide_eq_decide]; exact hits_btnpoll c

/-- The decoder, said once: the row whose fields the word has, or a rejection. -/
theorem decode_eq (c : Word) : decode c =
    if opField c = 1#4 ∧ rsvField c = 0#2 ∧ valField c = 0#16 then .ok (rowRdconv.build c)
    else if opField c = 2#4 ∧ rsvField c = 0#2 then .ok (rowWrconv.build c)
    else if opField c = 3#4 ∧ selField c = 0#2 ∧ rsvField c = 0#2 ∧ valField c = 0#16 then .ok (rowRdanalog.build c)
    else if opField c = 4#4 ∧ selField c = 0#2 ∧ rsvField c = 0#2 then .ok (rowWrcv.build c)
    else if opField c = 5#4 ∧ selField c = 0#2 ∧ rsvField c = 0#2 ∧ chField c = 0#8 ∧ valField c = 0#16 then
      .ok (rowEncpoll.build c)
    else if opField c = 6#4 ∧ selField c = 0#2 ∧ rsvField c = 0#2 ∧ chField c = 0#8 ∧ valField c = 0#16 then
      .ok (rowBtnpoll.build c)
    else .error (rejectReason c) := by
  simp only [decode, opcodeMap, List.find?_cons, List.find?_nil, rowRdconv_hits, rowWrconv_hits, rowRdanalog_hits,
    rowWrcv_hits, rowEncpoll_hits, rowBtnpoll_hits]
  split_ifs with h1 h2 h3 h4 h5 h6
  on_goal 7 => simp only [h1, h2, h3, h4, h5, h6, decide_false]
  all_goals simp_all

end Sys2Proof
end

