-- ==== Sys2Proof/Laws/Effects.lean ====
section
/-! SUPPORT. Everything a command can do, said once: a command only answers, reads a native input, runs one whole
transaction, or writes the fields of its own poll. The invariants of the machine follow from these few cases. -/

namespace Sys2Proof.Machine

/-- What one of the four bus commands can do. -/
inductive BusEffect (s : State) : State → Prop
  | silent (v : Config.Response) : BusEffect s (s.respond v)
  | native (i : NativeIn) (v : Config.Response) : BusEffect s ((s.tookNative i).respond v)
  | adc (l : SelectLine) (ch : BitVec 3) (v : Config.Response) : BusEffect s ((s.adcFrame l ch).2.respond v)
  | dac (l : SelectLine) (w : Half) (v : Config.Response) : BusEffect s ((s.dacFrame l w).respond v)

/-- What a command can do. -/
inductive Effect (s : State) : State → Prop
  | bus {t : State} (h : BusEffect s t) : Effect s t
  | enc (e : EncState) (i : Inputs) (d : Nat) (v : Config.Response) :
      Effect s (({ s with enc := e, inputs := i, draws := d } : State).respond v)
  | btn (b : BtnState) (i : Inputs) (d : Nat) (v : Config.Response) :
      Effect s (({ s with btn := b, inputs := i, draws := d } : State).respond v)

theorem readConverter_effect (s : State) (l : SelectLine) (ch : Nat) : BusEffect s (s.readConverter l ch) := by
  by_cases h : ch ≤ 7
  · rw [readConverter_inRange s l h]; exact .adc ..
  · rw [readConverter_outOfRange s l (by omega)]; exact .silent _

theorem writeConverter_effect (s : State) (l : SelectLine) (ch val : Nat) :
    BusEffect s (s.writeConverter l ch val) := by
  by_cases h : ch ≤ 1
  · rw [writeConverter_inRange s l val h]; exact .dac ..
  · rw [writeConverter_outOfRange s l val (by omega)]; exact .silent _

theorem readAnalog_effect (s : State) (ch : Nat) : BusEffect s (s.readAnalog ch) := by
  unfold State.readAnalog
  split
  · exact readConverter_effect ..
  · exact .native ..
  · exact .silent _

theorem writeCv_effect (s : State) (ch val : Nat) : BusEffect s (s.writeCv ch val) := by
  unfold State.writeCv
  split
  · exact writeConverter_effect ..
  · exact .silent _

theorem encPoll_effect (s : State) : Effect s s.encPoll := by
  by_cases h : 3#32 ≤ s.timeNow - s.encBase
  · rw [encPoll_gateOpen s h]; exact .enc ..
  · rw [encPoll_gateShut s (BitVec.not_le.mp h)]; exact .enc ..

theorem btnPoll_effect (s : State) : Effect s s.btnPoll := by
  by_cases h : 50#32 ≤ s.timeNow - s.btn.lastPoll
  · rw [btnPoll_gateOpen s h]; exact .btn ..
  · rw [btnPoll_gateShut s (BitVec.not_le.mp h)]; exact .btn ..

/-- A command that is no poll has one of the effects of a bus command. -/
theorem exec_busEffect {i : Instr} {s t : State} (he : i ≠ .encpoll) (hb : i ≠ .btnpoll)
    (h : exec i s = .next t) : BusEffect s t := by
  cases i <;> cases h
  · exact readConverter_effect ..
  · exact writeConverter_effect ..
  · exact readAnalog_effect ..
  · exact writeCv_effect ..
  · exact absurd rfl he
  · exact absurd rfl hb

/-- Every command has one of the effects. -/
theorem exec_effect {i : Instr} {s t : State} (h : exec i s = .next t) : Effect s t := by
  by_cases he : i = .encpoll
  · subst he; cases h; exact encPoll_effect s
  by_cases hb : i = .btnpoll
  · subst hb; cases h; exact btnPoll_effect s
  exact .bus (exec_busEffect he hb h)

/-- A bus command writes neither the Encoder State nor the Button State, nor what the host does next, nor
the open parameters. -/
theorem BusEffect.unchanged {s t : State} (h : BusEffect s t) :
    t.enc = s.enc ∧ t.btn = s.btn ∧ t.host = s.host ∧ t.setupDone = s.setupDone ∧
      t.params = s.params := by
  cases h <;> simp [adcFrame_eq, dacFrame_eq]

/-- No command changes the open parameters. -/
theorem Effect.params_eq {s t : State} (h : Effect s t) : t.params = s.params := by
  cases h with
  | bus h => exact h.unchanged.2.2.2.2
  | enc => rfl
  | btn => rfl

/-- The pins are at rest when each of them is. -/
theorem quiet_iff (p : Pins) : p.quiet = true ↔
    p.csN = SelectLines.idle ∧ p.sck = false ∧ p.busy = false ∧ p.cmdReady = true := by
  simp [Pins.quiet, and_assoc]

/-- Pins at rest are lawful. -/
theorem quiet_lawful {p : Pins} (h : p.quiet = true) : p.lawful = true := by
  rw [quiet_iff] at h
  simp [Pins.lawful, h, SelectLines.low, SelectLines.idle]

theorem adcFrameBits_ne_nil (ch : BitVec 3) : adcFrameBits ch ≠ [] := by simp [adcFrameBits, bitsMsb_ne_nil]

/-- The pins are lawful at every instant of a transaction that a command at rest runs. -/
theorem txnWave_lawful {p q : Pins} {l : SelectLine} {bs : List Level} {m : Level} (hb : bs ≠ [])
    (h1 : p.csN = SelectLines.idle) (h2 : p.sck = false) (hc : p.cmdReady = false) (h : q ∈ txnWave p l bs m) :
    q.lawful = true := by
  rcases mem_txnWave hb h with rfl | ⟨a, b, rfl⟩ | ⟨b, c, rfl⟩
  · simp [Pins.lawful, h1, h2, hc, SelectLines.low, SelectLines.idle]
  · cases l <;> simp [Pins.lawful, h1, hc, SelectLines.low, SelectLines.idle, SelectLines.put]
  · cases l <;> simp [Pins.lawful, h1, hc, SelectLines.low, SelectLines.idle, SelectLines.put]

/-! ### The bus history -/

/-- A whole transaction in front of a history leaves each part of the select-line discipline as it is. -/
theorem bracketed_txn (x : Txn) (es : List BusEvent) :
    bracketed .outside (x.events ++ es) = bracketed .outside es := by
  cases x <;> simp [Txn.events, bracketed]

theorem alternates_txn (l : SelectLine) (x : Txn) (es : List BusEvent) :
    alternates l false (x.events ++ es) = alternates l false es := by
  rcases x with ⟨k, _, _, _, _⟩ | ⟨k, _⟩ <;> by_cases h : k = l <;> simp [Txn.events, alternates, h]

theorem transfersCounted_txn (x : Txn) (es : List BusEvent) :
    transfersCounted 0 0 (x.events ++ es) = transfersCounted 0 0 es := by
  cases x <;> simp [Txn.events, transfersCounted]

/-- A history of whole transactions keeps the select-line discipline (R120). -/
theorem framed_disciplined {bus : List BusEvent} (h : framed bus) : disciplined bus := by
  obtain ⟨txns, rfl⟩ := h
  induction txns with
  | nil => exact ⟨rfl, fun _ => rfl, rfl⟩
  | cons x xs ih =>
    simp only [List.flatMap_cons, disciplined, bracketed_txn, alternates_txn, transfersCounted_txn]
    exact ih

end Sys2Proof.Machine
end

