-- ==== Sys2Proof/Laws/PerInstr.lean ====
section
/-! SUPPORT. Statements made per instruction. Family `OpcodeField`: the word of a command has the opcode of its row and
zero in every field its row does not use (30_encoding.md R81, R82). -/

namespace Sys2Proof.Laws

/-- The opcode of a command's row (R82). -/
def opcodeOf : Instr → BitVec 4
  | .rdconv _ _ => 0x1#4
  | .wrconv _ _ _ => 0x2#4
  | .rdanalog _ => 0x3#4
  | .wrcv _ _ => 0x4#4
  | .encpoll => 0x5#4
  | .btnpoll => 0x6#4

/-- Whether a command's row uses the fields `SEL`, `CH`, `VAL` (R82). -/
def usesFields : Instr → Bool × Bool × Bool
  | .rdconv _ _ => (true, true, false)
  | .wrconv _ _ _ => (true, true, true)
  | .rdanalog _ => (false, true, false)
  | .wrcv _ _ => (false, true, true)
  | .encpoll => (false, false, false)
  | .btnpoll => (false, false, false)

/-- The fields of a command's word that its row fixes. -/
def OpcodeField.Statement (i : Instr) : Prop :=
  opField (encode i) = opcodeOf i ∧ rsvField (encode i) = 0#2 ∧
    ((usesFields i).1 = false → selField (encode i) = 0#2) ∧
    ((usesFields i).2.1 = false → chField (encode i) = 0#8) ∧
    ((usesFields i).2.2 = false → valField (encode i) = 0#16)

theorem OpcodeField.rdconv (sel : SelectLine) (ch : Nat) : OpcodeField.Statement (.rdconv sel ch) := by
  simp [OpcodeField.Statement, encode, opcodeOf, usesFields]

theorem OpcodeField.wrconv (sel : SelectLine) (ch val : Nat) : OpcodeField.Statement (.wrconv sel ch val) := by
  simp [OpcodeField.Statement, encode, opcodeOf, usesFields]

theorem OpcodeField.rdanalog (ch : Nat) : OpcodeField.Statement (.rdanalog ch) := by
  simp [OpcodeField.Statement, encode, opcodeOf, usesFields]

theorem OpcodeField.wrcv (ch val : Nat) : OpcodeField.Statement (.wrcv ch val) := by
  simp [OpcodeField.Statement, encode, opcodeOf, usesFields]

theorem OpcodeField.encpoll : OpcodeField.Statement .encpoll := by
  simp [OpcodeField.Statement, encode, opcodeOf, usesFields]

theorem OpcodeField.btnpoll : OpcodeField.Statement .btnpoll := by
  simp [OpcodeField.Statement, encode, opcodeOf, usesFields]

end Sys2Proof.Laws
end

