-- ==== Sys2Proof/Tests/Slice0.lean ====
section
/-! SUPPORT. The model's own tests. Every expected value is taken from spec/95_test_vectors.md or written out from
30_encoding.md R81 and R82; the vector's number stands in the test's comment. Below the tests stand the witnesses: for
each obligation with hypotheses, a state and operands that meet them all. -/

namespace Sys2Proof.Tests

open Sys2Proof.Machine

/-! ### Helpers -/

/-- The state after reset with these answers of the environment to come. -/
def withInputs (i : Inputs) : State := { State.reset with inputs := i }

/-- The state after reset with these samples of `MISO` to come. -/
def withMiso (bits : List Level) : State := withInputs { Inputs.none with miso := bits }

/-- The state after reset with this Encoder State, time and levels of the encoder lines. -/
def encoder (e : EncState) (now : Time) (a b : Level) : State :=
  { withInputs { Inputs.none with time := [now], encA := [a], encB := [b] } with enc := e }

/-- The state after reset with this Button State, time and level of the button line. -/
def button (b : BtnState) (now : Time) (c : Level) : State :=
  { withInputs { Inputs.none with time := [now], btnIn := [c] } with btn := b }

/-- What a next state holds. -/
def seen {α : Type} (f : State → α) : Host.Outcome State Fault Refusal → Option α
  | .next t => some (f t)
  | _ => none

/-- The response of a next state. -/
def answer : Host.Outcome State Fault Refusal → Option Half := seen (fun t => t.pins.rsp)

/-- The 24 samples of `MISO` of vector F2: `FF 02 9A`. -/
def f2Samples : List Level :=
  [true, true, true, true, true, true, true, true, false, false, false, false, false, false, true, false,
    true, false, false, true, true, false, true, false]

/-! ### Decoding: words written out from R81 and R82 -/

/-- `OP` 0001, `SEL` 01, `RSV` 00, `CH` 00000101 (F2). -/
theorem test_decode_rdconv : decode 0b00010100000001010000000000000000#32 = .ok (.rdconv .adcB 5) := by rfl

/-- `OP` 0010, `SEL` 10, `RSV` 00, `CH` 00000001, `VAL` 0x0800 (F10). -/
theorem test_decode_wrconv : decode 0b00101000000000010000100000000000#32 = .ok (.wrconv .dacA 1 2048) := by rfl

/-- `OP` 0011, `CH` 00001101 (C4). -/
theorem test_decode_rdanalog : decode 0b00110000000011010000000000000000#32 = .ok (.rdanalog 13) := by rfl

/-- `OP` 0100, `CH` 00000011, `VAL` 0x1388 (C13). -/
theorem test_decode_wrcv : decode 0b01000000000000110001001110001000#32 = .ok (.wrcv 3 5000) := by rfl

/-- `OP` 0101, all else zero (R150). -/
theorem test_decode_encpoll : decode 0b01010000000000000000000000000000#32 = .ok .encpoll := by rfl

/-- `OP` 0110, all else zero (R170). -/
theorem test_decode_btnpoll : decode 0b01100000000000000000000000000000#32 = .ok .btnpoll := by rfl

/-- A channel the operation does not have is still a legal command (R83: `CH = 200`). -/
theorem test_decode_channel_200 : decode 0x30C80000#32 = .ok (.rdanalog 200) := by rfl

/-- I1, I2, I3: reserved opcodes. -/
theorem test_reject_reserved_opcodes :
    [0x00000000#32, 0x70000000#32, 0xF0000000#32].map decode =
      [.error .reservedOpcode, .error .reservedOpcode, .error .reservedOpcode] := by rfl

/-- I4 to I8: a field that must be zero is not. -/
theorem test_reject_nonzero_fields :
    [0x50000001#32, 0x11050000#32, 0x34050000#32, 0x10050001#32, 0x60010000#32].map decode =
      List.replicate 5 (.error .nonzeroReservedField) := by rfl

/-- The word of F14 by the host's numbering of bits. -/
theorem test_decodeTableWord : decodeTableWord 32 0x2C01FFFF = some (.wrconv .dacB 1 65535) := by rfl

/-- R98's example: `WRCV 3, 5000` is `0x40031388`. -/
theorem test_encode_wrcv : encode (.wrcv 3 5000) = 0x40031388#32 := by rfl

/-- F14: `WRCONV 3, 1, 65535` is `0x2C01FFFF`. -/
theorem test_encode_wrconv : encode (.wrconv .dacB 1 65535) = 0x2C01FFFF#32 := by rfl

/-! ### Well-formedness: each check refuses an ill-formed command -/

/-- `CH` has 8 bits (R81). -/
theorem test_illformed_channel :
    [Instr.rdconv .adcA 256, .wrconv .dacA 256 0, .rdanalog 256, .wrcv 256 0].map Instr.wellFormed =
      [false, false, false, false] := by rfl

/-- `VAL` has 16 bits (R81). -/
theorem test_illformed_value :
    [Instr.wrconv .dacA 0 65536, .wrcv 0 65536].map Instr.wellFormed = [false, false] := by rfl

/-- The largest operands have a word. -/
theorem test_wellformed_bounds :
    [Instr.rdconv .dacB 255, .wrconv .dacB 255 65535, .rdanalog 255, .wrcv 255 65535].map Instr.wellFormed =
      [true, true, true, true] := by rfl

/-! ### One step of each command -/

/-- F2: `RDCONV 1, 5` with `FF 02 9A` received answers 0x029A. -/
theorem test_rdconv_answer : answer (exec (.rdconv .adcB 5) (withMiso f2Samples)) = some 0x029A#16 := by rfl

/-- F2: the events of the transaction. -/
theorem test_rdconv_bus : seen (fun t => t.bus) (exec (.rdconv .adcB 5) (withMiso f2Samples)) =
    some [.txnBegin, .csLow .adcB, .byte 0x01 0xFF, .byte 0xD0 0x02, .byte 0x00 0x9A, .csHigh .adcB, .txnEnd] := by
  rfl

/-- F10's symbolic word: `DAC_CFG[1] | 0x0800` under `CS_N[2]`. -/
theorem test_wrconv_bus : seen (fun t => t.bus) (exec (.wrconv .dacA 1 0x0800) State.reset) =
    some [.txnBegin, .csLow .dacA, .word16 (Config.dacCfg 1 ||| 0x0800#16), .csHigh .dacA, .txnEnd] := by rfl

/-- F10, F12, F13: the words with the illustrative configuration words; 4096 and 5000 are clamped. -/
theorem test_dacWord : [dacWord 0xB000#16 0x0800, dacWord 0x3000#16 4096, dacWord 0x3000#16 5000] =
    [0xB800#16, 0x3FFF#16, 0x3FFF#16] := by rfl

/-- C4: `RDANALOG 13` runs RDCONV(1, 5). -/
theorem test_rdanalog_answer : answer (exec (.rdanalog 13) (withMiso f2Samples)) = some 0x029A#16 := by rfl

/-- C6, C8, C9: a native conversion, and the two invalid channels. -/
theorem test_rdanalog_native_and_invalid :
    [16, 18, 255].map (fun ch => answer (exec (.rdanalog ch) (withInputs { Inputs.none with native0 := [0x155#10] }))) =
      [some 0x0155#16, some 0xFFFF#16, some 0xFFFF#16] := by rfl

/-- C13: `WRCV 3, 5000` writes 4095 to channel 1 of DAC B. -/
theorem test_wrcv_bus : seen (fun t => t.bus) (exec (.wrcv 3 5000) State.reset) =
    some [.txnBegin, .csLow .dacB, .word16 (Config.dacCfg 1 ||| 0x0FFF#16), .csHigh .dacB, .txnEnd] := by rfl

/-- C14: `WRCV 4, 5000` sends nothing. -/
theorem test_wrcv_bad_channel : seen (fun t => t.bus) (exec (.wrcv 4 5000) State.reset) = some [] := by rfl

/-- Q6: a falling edge with B high answers -1. -/
theorem test_encpoll_falling_edge_b_high :
    seen (fun t => (t.pins.rsp, t.enc)) (exec .encpoll (encoder ⟨true, 9, 0#2⟩ 12 false true)) =
      some (0xFFFF#16, ⟨false, 12, 0b11#2⟩) := by rfl

/-- Q9: the wrap rule fires and the gate fails. -/
theorem test_encpoll_wrap_gate_shut :
    seen (fun t => (t.pins.rsp, t.enc)) (exec .encpoll (encoder ⟨true, 0xFFFFFFF0, 0#2⟩ 2 false false)) =
      some (0x0000#16, ⟨true, 0, 0#2⟩) := by rfl

/-- B12: a release 600 after the press is long. -/
theorem test_btnpoll_long :
    seen (fun t => (t.pins.rsp, t.btn)) (exec .btnpoll (button ⟨false, 850, 300, 200, 0#2⟩ 900 true)) =
      some (0x0002#16, ⟨true, 900, 300, 900, 0b10#2⟩) := by rfl

/-- The vector across a wrap of 95_test_vectors.md section 2.5: elapsed 64, duration 288, short. -/
theorem test_btnpoll_short_across_a_wrap :
    seen (fun t => (t.pins.rsp, t.btn)) (exec .btnpoll (button ⟨false, 0xFFFFFFE0, 0xFFFFFF00, 0, 0#2⟩ 0x20 true)) =
      some (0x0001#16, ⟨true, 0x20, 0xFFFFFF00, 0x20, 0b01#2⟩) := by rfl

/-- R6: every select line has an index below `SEL_COUNT`, and every index is that of a line; the mask of R94. -/
theorem test_parameters :
    (List.range Config.selCount).map (fun k => (selIndex (selOf (BitVec.ofNat 2 k))).val) = [0, 1, 2, 3] ∧
      dacMask = 0x0FFF#16 ∧ Config.invalid = BitVec.allOnes Config.rspW := ⟨rfl, rfl, rfl⟩

/-! ### Steps of the machine -/

/-- A presented word runs as the first command after reset (C9). -/
theorem test_step_runs_the_word : answer (step (State.reset.withFetchWord 32 0x30FF0000)) = some 0xFFFF#16 := by rfl

/-- R39, R220: `rst` reads the machine's own `RESET_PREV_A` and `RESET_PREV_BTN`, not their defaults. -/
theorem test_rst_reads_the_open_parameters :
    seen (fun t => (t.enc.prevA, t.btn.prev)) (step { State.resetWith false false with host := [.rst] }) =
      some (false, false) := by rfl

/-- I4: an illegal word answers `INVALID`; the tick is not cleared. -/
theorem test_step_illegal_word :
    seen (fun t => (t.pins.rsp, t.enc.tick)) (step ((encoder ⟨true, 0, 0b01#2⟩ 9 true true).withFetchWord 32 0x50000001)) =
      some (0xFFFF#16, 0b01#2) := by rfl

/-! ### Witnesses: the hypotheses of each obligation can be met together -/

/-- A state before a step: this word presented to the block after reset. -/
def presented (w : Word) : State := { State.reset with host := [.command w] }

theorem witness_DecodeOfEncodeIsTheCommand : (Instr.wrconv .dacB 255 65535).wellFormed = true := by rfl

theorem witness_EncodeOfDecodeIsTheWord : decode 0x2CFFFFFF#32 = .ok (.wrconv .dacB 255 65535) ∧
    (Instr.wrconv .dacB 255 65535).wellFormed = true ∧ encode (.wrconv .dacB 255 65535) = 0x2CFFFFFF#32 :=
  ⟨rfl, rfl, rfl⟩

theorem witness_DecodingFollowsTheOpcodeMap :
    0x1CFF0000#32 &&& 0xF300FFFF#32 = 0x10000000#32 ∧ 0x2CFFFFFF#32 &&& 0xF3000000#32 = 0x20000000#32 ∧
      0x30FF0000#32 &&& 0xFF00FFFF#32 = 0x30000000#32 ∧ 0x40FFFFFF#32 &&& 0xFF000000#32 = 0x40000000#32 ∧
      0x50000000#32 &&& 0xFFFFFFFF#32 = 0x50000000#32 ∧ 0x60000000#32 &&& 0xFFFFFFFF#32 = 0x60000000#32 ∧
      (0x7FFFFFFF#32 &&& 0xF300FFFF#32 ≠ 0x10000000#32 ∧ 0x7FFFFFFF#32 &&& 0xF3000000#32 ≠ 0x20000000#32 ∧
        0x7FFFFFFF#32 &&& 0xFF00FFFF#32 ≠ 0x30000000#32 ∧ 0x7FFFFFFF#32 &&& 0xFF000000#32 ≠ 0x40000000#32 ∧
        0x7FFFFFFF#32 &&& 0xFFFFFFFF#32 ≠ 0x50000000#32 ∧ 0x7FFFFFFF#32 &&& 0xFFFFFFFF#32 ≠ 0x60000000#32) := by
  decide

/-- Also for EveryCommandEndsWithOneResponse. -/
theorem witness_StepRunsTheDecodedCommand : (presented 0x50000000#32).host = .command 0x50000000#32 :: [] ∧
    (presented 0x50000000#32).setupDone = true ∧ (presented 0x50000000#32).pins.cmdReady = true ∧
    decode 0x50000000#32 = .ok .encpoll := ⟨rfl, rfl, rfl, rfl⟩

/-- The first three hypotheses. -/
theorem witness_IllegalCommand_state : (presented 0x00000000#32).host = .command 0x00000000#32 :: [] ∧
    (presented 0x00000000#32).setupDone = true ∧ (presented 0x00000000#32).pins.cmdReady = true := ⟨rfl, rfl, rfl⟩

/-- Each alternative of the last hypothesis, at a boundary: opcodes 0 and 7, `RSV`, and one stray bit of each row. -/
theorem witness_IllegalCommand_words :
    (0x00000000#32).extractLsb' 28 4 = 0#4 ∧ 7#4 ≤ (0x70000000#32).extractLsb' 28 4 ∧
      (0x11050000#32).extractLsb' 24 2 ≠ 0#2 ∧
      ((0x10050001#32).extractLsb' 28 4 = 1#4 ∧ (0x10050001#32).extractLsb' 0 16 ≠ 0#16) ∧
      ((0x34050000#32).extractLsb' 28 4 = 3#4 ∧ (0x34050000#32).extractLsb' 26 2 ≠ 0#2) ∧
      ((0x44000000#32).extractLsb' 28 4 = 4#4 ∧ (0x44000000#32).extractLsb' 26 2 ≠ 0#2) ∧
      (5#4 ≤ (0x50000001#32).extractLsb' 28 4 ∧ (0x50000001#32).extractLsb' 0 16 ≠ 0#16) := by decide

theorem witness_NothingHappensWithoutTheHost : State.reset.host = [] := rfl

theorem witness_MovesTheHostDoesNotHaveAreRefused :
    ({ presented 0#32 with setupDone := false } : State).setupDone = false ∧
      (((presented 0#32).accept [.command 0#32]).host = .command 0#32 :: [] ∧
        ((presented 0#32).accept [.command 0#32]).setupDone = true ∧
        ((presented 0#32).accept [.command 0#32]).pins.cmdReady = false) ∧
      (((presented 0#32).accept [.rst]).host = .rst :: [] ∧ ((presented 0#32).accept [.rst]).pins.cmdReady = false) :=
  ⟨rfl, ⟨rfl, rfl, rfl⟩, rfl, rfl⟩

/-- Also for BlockAtRestRunsWithoutEnd. -/
theorem witness_BlockAtRestAlwaysSteps : (presented 0x50000000#32).ready = true := by rfl

theorem witness_ResetInputRestoresTheResetValues :
    ({ State.reset with host := [.rst] } : State).host = .rst :: [] ∧
      ({ State.reset with host := [.rst] } : State).pins.cmdReady = true := ⟨rfl, rfl⟩

/-- Also for NoStepChangesTheOpenParameters. -/
theorem witness_OneStep : step State.reset = .next State.reset := rfl

theorem witness_SetUpMakesTheLinesReady : ({ State.reset with host := [.setUp] } : State).host = .setUp :: [] ∧
    ({ State.reset with host := [.setUp] } : State).pins.cmdReady = true := ⟨rfl, rfl⟩

/-- Also for EveryStepKeepsTheSelectLineDiscipline. -/
theorem witness_EveryStepKeepsTheInvariant : (presented 0x10050000#32).Inv ∧
    step (presented 0x10050000#32) = .next (((presented 0x10050000#32).accept []).readConverter .adcA 5) :=
  ⟨⟨rfl, by decide, by decide, ⟨[], rfl⟩, fun p hp => absurd hp List.not_mem_nil⟩, rfl⟩

/-- R120: a window of two byte events, one with a second word, and one left open are no discipline. -/
theorem test_undisciplined :
    transfersCounted 0 0 [.txnBegin, .csLow .adcA, .byte 1 0, .byte 0x80 0, .csHigh .adcA, .txnEnd] = false ∧
      transfersCounted 0 0 [.txnBegin, .csLow .dacA, .word16 0, .word16 0, .csHigh .dacA, .txnEnd] = false ∧
      alternates .dacA false [.txnBegin, .csLow .dacA, .word16 0] = false := by decide

theorem witness_OnlyAUnitsOwnPollChangesItsState :
    (presented 0x50000000#32).host = .command 0x50000000#32 :: [] ∧
      step (presented 0x50000000#32) = .next ((presented 0x50000000#32).accept []).encPoll := ⟨rfl, rfl⟩

/-- The channel bounds of RDCONV, WRCONV, RDANALOG and WRCV: the last channel in range and the first out of it. Also the
native channels, and the idle clock that the wire statements ask for. -/
theorem witness_channel_bounds : (7 ≤ 7 ∧ 8 ≤ 8) ∧ (1 ≤ 1 ∧ 2 ≤ 2) ∧ (15 ≤ 15 ∧ 18 ≤ 18) ∧ (3 ≤ 3 ∧ 4 ≤ 4) ∧
    ((16 = 16 ∧ NativeIn.ain0 = .ain0) ∨ (16 = 17 ∧ NativeIn.ain0 = .ain1)) ∧
    ((17 = 16 ∧ NativeIn.ain1 = .ain0) ∨ (17 = 17 ∧ NativeIn.ain1 = .ain1)) ∧ State.reset.pins.sck = false := by decide

theorem witness_WrconvSendsTheClampedValue : 1 ≤ 1 ∧ 4095 < 4096 := by decide

theorem witness_routes : analogRoute 15 = some (.converter .adcB 7) ∧ cvRoute 3 = some (.dacB, 1) := ⟨rfl, rfl⟩

theorem witness_BusCommandsRetainNothing : Instr.rdanalog 17 ≠ .encpoll ∧ Instr.rdanalog 17 ≠ .btnpoll ∧
    State.reset.pins.csN = SelectLines.idle ∧ State.reset.pins.sck = false ∧ State.reset.pins.busy = false := by decide

theorem witness_PairedCommandsReachTheRightKindOfDevice :
    (Instr.rdconv .adcB 7).paired = true ∧ (Instr.wrconv .dacB 1 0).paired = true := ⟨rfl, rfl⟩

theorem witness_OnlyAnInRangeChannelReachesTheBus :
    exec (.wrcv 3 0) State.reset = .next (State.reset.writeCv 3 0) ∧ (State.reset.writeCv 3 0).bus ≠ State.reset.bus :=
  ⟨rfl, fun h => absurd (congrArg List.length h) (by decide)⟩

/-- Q9 and Q12: the wrap rule fires, the gate then shut and then open. -/
theorem witness_EncpollRestartsFromZeroOnAWrap :
    ((encoder ⟨true, 0xFFFFFFF0, 0#2⟩ 2 false false).timeNow < (0xFFFFFFF0#32 : Time) ∧
      (encoder ⟨true, 0xFFFFFFF0, 0#2⟩ 2 false false).timeNow < (3#32 : Time)) ∧
    ((encoder ⟨true, 0xFFFFFFF0, 0#2⟩ 4 false true).timeNow < (0xFFFFFFF0#32 : Time) ∧
      (3#32 : Time) ≤ (encoder ⟨true, 0xFFFFFFF0, 0#2⟩ 4 false true).timeNow) := by decide

/-- The gate boundary of 95_test_vectors.md section 2.4: 102 fails, 103 passes. -/
theorem witness_Encpoll_gate :
    (encoder ⟨true, 100, 0#2⟩ 102 false false).timeNow - (encoder ⟨true, 100, 0#2⟩ 102 false false).encBase < (3#32 : Time) ∧
    ((3#32 : Time) ≤ (encoder ⟨true, 100, 0#2⟩ 103 false true).timeNow - (encoder ⟨true, 100, 0#2⟩ 103 false true).encBase ∧
      (encoder ⟨true, 100, 0#2⟩ 103 false true).tookTime.pinRead .encA = false ∧
      ((encoder ⟨true, 100, 0#2⟩ 103 false true).tookTime.tookPin .encA).pinRead .encB = true) := by decide

/-- The four rows of the table of R155 that differ in what they say of the tick. -/
theorem witness_Encpoll_rows :
    (encoder ⟨true, 0, 0#2⟩ 3 true false).tookTime.pinRead .encA = true ∧
      ((encoder ⟨true, 0, 0#2⟩ 3 false false).tookTime.tookPin .encA).pinRead .encB = false ∧
      ((encoder ⟨true, 0, 0#2⟩ 3 false true).tookTime.tookPin .encA).pinRead .encB = true ∧
      (encoder ⟨false, 0, 0#2⟩ 3 true true).enc.prevA = false := by decide

/-- Two states that differ in the tick, the button and the bus. -/
theorem witness_EncpollDependsOnlyOnItsSampleAndWhatItReads :
    (encoder ⟨true, 0, 0#2⟩ 3 false false).enc.prevA = (encoder ⟨true, 0, 1#2⟩ 3 false false).enc.prevA ∧
      (encoder ⟨true, 0, 0#2⟩ 3 false false).enc.lastPoll = (encoder ⟨true, 0, 1#2⟩ 3 false false).enc.lastPoll ∧
      (encoder ⟨true, 0, 0#2⟩ 3 false false).inputs = (encoder ⟨true, 0, 1#2⟩ 3 false false).inputs ∧
      (encoder ⟨true, 0, 0#2⟩ 3 false false).draws = (encoder ⟨true, 0, 1#2⟩ 3 false false).draws := ⟨rfl, rfl, rfl, rfl⟩

/-- The states of witness_AtMostOneTickInThreeTimeUnits: a tick at time 6, a poll at time 7 whose gate fails and clears the
tick, and a poll at time 8. -/
def ticked : State := (encoder ⟨true, 3, 0#2⟩ 6 false false).encPoll
def polledAgain : State :=
  { ({ ticked with inputs := { Inputs.none with time := [7] } } : State).encPoll with
    inputs := { Inputs.none with time := [8] } }

theorem witness_AtMostOneTickInThreeTimeUnits :
    exec .encpoll (encoder ⟨true, 3, 0#2⟩ 6 false false) = .next ticked ∧ ticked.enc.tick ≠ 0b00#2 ∧
      polledAgain.enc.lastPoll = ticked.enc.lastPoll ∧ (encoder ⟨true, 3, 0#2⟩ 6 false false).timeNow ≤ polledAgain.timeNow ∧
      polledAgain.timeNow - (encoder ⟨true, 3, 0#2⟩ 6 false false).timeNow < (3#32 : Time) ∧
      exec .encpoll polledAgain = .next polledAgain.encPoll :=
  ⟨rfl, by decide, rfl, by decide, by decide, rfl⟩

/-- Q9 and Q10: the wrapping poll at time 2, and the poll at time 5. -/
def wrapped : State := (encoder ⟨true, 0xFFFFFFF0, 0#2⟩ 2 false false).encPoll
def afterWrap : State :=
  { wrapped with inputs := { Inputs.none with time := [5], encA := [false], encB := [false] } }

theorem witness_DecoderDoesNotStallAfterAWrap :
    (encoder ⟨true, 0xFFFFFFF0, 0#2⟩ 2 false false).timeNow < (0xFFFFFFF0#32 : Time) ∧
      exec .encpoll (encoder ⟨true, 0xFFFFFFF0, 0#2⟩ 2 false false) = .next wrapped ∧ afterWrap.enc = wrapped.enc ∧
      (encoder ⟨true, 0xFFFFFFF0, 0#2⟩ 2 false false).timeNow ≤ afterWrap.timeNow ∧
      (3#32 : Time) ≤ afterWrap.timeNow -
        (if (encoder ⟨true, 0xFFFFFFF0, 0#2⟩ 2 false false).timeNow < (3#32 : Time) then 0#32
          else (encoder ⟨true, 0xFFFFFFF0, 0#2⟩ 2 false false).timeNow) ∧
      wrapped.enc.prevA = true ∧ afterWrap.tookTime.pinRead .encA = false :=
  ⟨by decide, rfl, rfl, by decide, by decide, rfl, rfl⟩

/-- The gate boundary of 95_test_vectors.md section 2.5: 1049 fails, 1050 passes. -/
theorem witness_Btnpoll_gate :
    (button ⟨true, 1000, 0, 0, 0#2⟩ 1049 false).timeNow - (1000#32 : Time) < (50#32 : Time) ∧
      ((50#32 : Time) ≤ (button ⟨true, 1000, 0, 0, 0#2⟩ 1050 false).timeNow - (1000#32 : Time) ∧
        (button ⟨true, 1000, 0, 0, 0#2⟩ 1050 false).tookTime.pinRead .btnIn = false) := by decide

/-- The rows of R176 and the threshold of 95_test_vectors.md section 2.5: 1499 is short, 1500 is long. -/
theorem witness_Btnpoll_rows :
    (button ⟨true, 0, 0, 0, 0#2⟩ 50 true).tookTime.pinRead .btnIn = true ∧
      (button ⟨false, 1400, 1000, 0, 0#2⟩ 1499 true).tookTime.pinRead .btnIn = true ∧
      (button ⟨false, 1400, 1000, 0, 0#2⟩ 1499 true).timeNow - (1000#32 : Time) < (500#32 : Time) ∧
      (500#32 : Time) ≤ (button ⟨false, 1400, 1000, 0, 0#2⟩ 1500 true).timeNow - (1000#32 : Time) := by decide

/-- B6 and B7: a short press, and the poll after it. -/
def pressed : State := button ⟨false, 150, 100, 0, 0#2⟩ 200 true
def reported : State := pressed.btnPoll

/-- Also for OnlyAReleaseReportsAResult. -/
theorem witness_AResultIsReportedOnce : exec .btnpoll pressed = .next reported ∧ reported.btn.result ≠ 0b00#2 ∧
    ({ reported with inputs := { Inputs.none with time := [250] } } : State).btn = reported.btn :=
  ⟨rfl, by decide, rfl⟩

/-- Two states that differ in the result an earlier command left. -/
theorem witness_BtnpollDependsOnlyOnItsSampleAndWhatItReads :
    (button ⟨false, 150, 100, 0, 0#2⟩ 200 true).btn.prev = (button ⟨false, 150, 100, 0, 1#2⟩ 200 true).btn.prev ∧
      (button ⟨false, 150, 100, 0, 0#2⟩ 200 true).btn.lastPoll = (button ⟨false, 150, 100, 0, 1#2⟩ 200 true).btn.lastPoll ∧
      (button ⟨false, 150, 100, 0, 0#2⟩ 200 true).btn.pressTime = (button ⟨false, 150, 100, 0, 1#2⟩ 200 true).btn.pressTime ∧
      (button ⟨false, 150, 100, 0, 0#2⟩ 200 true).btn.releaseTime =
        (button ⟨false, 150, 100, 0, 1#2⟩ 200 true).btn.releaseTime ∧
      (button ⟨false, 150, 100, 0, 0#2⟩ 200 true).inputs = (button ⟨false, 150, 100, 0, 1#2⟩ 200 true).inputs ∧
      (button ⟨false, 150, 100, 0, 0#2⟩ 200 true).draws = (button ⟨false, 150, 100, 0, 1#2⟩ 200 true).draws :=
  ⟨rfl, rfl, rfl, rfl, rfl, rfl⟩

end Sys2Proof.Tests
end

section
/-! Proofs: the scope of the block (00_scope.md). What a move of the host leaves of the open parameters, and the step
in which the host has no move. -/

namespace Sys2Proof.Machine

/-! ### The open parameters under each move of the host -/

@[simp] theorem State.resetEvent_params (s : State) (rest : List HostMove) :
    (s.resetEvent rest).params = s.params := rfl

@[simp] theorem State.setUpEvent_params (s : State) (rest : List HostMove) :
    (s.setUpEvent rest).params = s.params := rfl

@[simp] theorem State.illegalCommand_params (s : State) : s.illegalCommand.params = s.params := rfl

/-- A command that completes keeps the open parameters. -/
theorem exec_params {i : Instr} {s t : State} (h : exec i s = .next t) : t.params = s.params :=
  (exec_effect h).params_eq

/-- Settles O53: by cases on the host's move. `rst` rebuilds the state from this machine's own parameters, and a command
has one of the effects of `exec_effect`. -/
theorem noStepChangesTheOpenParameters : Obligations.NoStepChangesTheOpenParameters := by
  intro s t h
  obtain ⟨-, rfl⟩ | ⟨rest, -, rfl⟩ | ⟨rest, -, -, rfl⟩ | ⟨w, rest, -, -, -, hw⟩ := step_cases h
  · rfl
  · exact s.setUpEvent_params rest
  · exact s.resetEvent_params rest
  · obtain ⟨i, -, hi⟩ | ⟨-, rfl⟩ := hw
    · rw [exec_params hi, State.accept_params]
    · rw [State.illegalCommand_params, State.accept_params]

/-! ### The step without a move -/

/-- Where the host has no move, `step` takes its idle branch (R13, R197). -/
theorem step_of_host_nil {s : State} (h : s.host = []) : step s = .next s.idle := by
  rw [step, h]

/-- Settles O7: the idle branch of `step` answers the state itself. -/
theorem nothingHappensWithoutTheHost : Obligations.NothingHappensWithoutTheHost := by
  intro s h
  rw [step_of_host_nil h, State.idle]

end Sys2Proof.Machine
end

section
/-! Proofs: the state of the block (10_state.md). Reset, what a step does before it executes a command, what a command
appends to the bus history, the frame of the four bus commands, and the invariant of the machine. -/

namespace Sys2Proof.Machine

/-! ### Reset -/

@[simp] theorem SelectLines.idle_level (l : SelectLine) : SelectLines.idle.level l = true := by cases l <;> rfl

/-- Settles O12: every field of the state after reset, read off by the laws of `State.resetWith`. -/
theorem resetLeavesTheStatedValues : Obligations.ResetLeavesTheStatedValues := by
  intro a b
  exact ⟨rfl, rfl, SelectLines.idle_level, rfl, rfl, rfl, rfl, rfl, rfl, rfl⟩

/-- Where `rst` is pulsed while `cmd_ready` is 1, the step is the reset event (R220, R221). -/
theorem step_of_rst {s : State} {rest : List HostMove} (h : s.host = .rst :: rest) (hc : s.pins.cmdReady = true) :
    step s = .next (s.resetEvent rest) := by
  simp [step, h, pulseReset, State.barsReset, hc]

/-- Settles O13: the step is the reset event, which builds the state anew from the machine's own parameters. -/
theorem resetInputRestoresTheResetValues : Obligations.ResetInputRestoresTheResetValues := by
  intro s rest h hc
  exact ⟨s.resetEvent rest, step_of_rst h hc, rfl, rfl, SelectLines.idle_level, rfl, rfl, rfl, rfl, rfl, rfl, rfl⟩

/-! ### Presenting a command -/

/-- Where a word is presented to a block that can take it, the step runs the word (R230). -/
theorem step_of_command {s : State} {w : Word} {rest : List HostMove} (h : s.host = .command w :: rest)
    (hs : s.setupDone = true) (hc : s.pins.cmdReady = true) : step s = runCommand w rest s := by
  simp [step, h, presentCommand, State.barsCommand, hs, hc]

/-- A word that decodes is executed from the state in which it is taken (R83). -/
theorem runCommand_of_decode_ok {w : Word} {i : Instr} (rest : List HostMove) (s : State) (h : decode w = .ok i) :
    runCommand w rest s = exec i (s.accept rest) := by
  rw [runCommand, h]

/-- Settles O5: the command is executed from the accepted state, whose fields the laws of `State.accept` give. -/
theorem stepRunsTheDecodedCommand : Obligations.StepRunsTheDecodedCommand := by
  intro s w rest i h hs hc hd
  refine ⟨s.accept rest, ?_, rfl, rfl, rfl, rfl, rfl, rfl, rfl, rfl, rfl, rfl⟩
  rw [step_of_command h hs hc, runCommand_of_decode_ok rest s hd]

/-- Every command completes (R190). -/
theorem exec_completes (i : Instr) (s : State) : ∃ t, exec i s = .next t := by
  cases i <;> exact ⟨_, rfl⟩

/-! ### What a command appends to the bus history -/

/-- An ADC transaction appends its events (R112). -/
theorem adcFrame_bus (s : State) (l : SelectLine) (ch : BitVec 3) :
    (s.adcFrame l ch).2.bus =
      s.bus ++ (Txn.adc l ch (s.misoByte 0) (s.misoByte 8) (s.misoByte 16)).events := by
  rw [adcFrame_eq]; rfl

/-- A DAC transaction appends its events (R117). -/
theorem dacFrame_bus (s : State) (l : SelectLine) (w : Half) :
    (s.dacFrame l w).bus = s.bus ++ (Txn.dac l w).events := by
  rw [dacFrame_eq]; rfl

/-- A bus command appends the events of at most one whole transaction. -/
theorem BusEffect.bus_eq {s t : State} (h : BusEffect s t) :
    ∃ txns, t.bus = s.bus ++ List.flatMap Txn.events txns ∧ txns.length ≤ 1 := by
  cases h with
  | silent v => exact ⟨[], by simp⟩
  | native i v => exact ⟨[], by simp⟩
  | adc l ch v => exact ⟨[.adc l ch (s.misoByte 0) (s.misoByte 8) (s.misoByte 16)], by simp [adcFrame_bus]⟩
  | dac l w v => exact ⟨[.dac l w], by simp [dacFrame_bus]⟩

/-- Every command appends the events of at most one whole transaction. -/
theorem Effect.bus_eq {s t : State} (h : Effect s t) :
    ∃ txns, t.bus = s.bus ++ List.flatMap Txn.events txns ∧ txns.length ≤ 1 := by
  cases h with
  | bus h => exact h.bus_eq
  | enc e i d v => exact ⟨[], by simp⟩
  | btn b i d v => exact ⟨[], by simp⟩

/-- Settles O18: every command completes, and each of its possible effects appends at most one transaction. -/
theorem commandAppendsAtMostOneTransaction : Obligations.CommandAppendsAtMostOneTransaction := by
  intro i s
  obtain ⟨t, ht⟩ := exec_completes i s
  obtain ⟨txns, hbus, hlen⟩ := (exec_effect ht).bus_eq
  exact ⟨t, txns, ht, hbus, hlen⟩

/-- A history of whole transactions stays one when a transaction's events are appended. -/
theorem framed_append_events {bus : List BusEvent} (h : framed bus) (x : Txn) : framed (bus ++ x.events) := by
  obtain ⟨txns, rfl⟩ := h
  exact ⟨txns ++ [x], by simp⟩

/-! ### The lines at rest -/

/-- The serial lines are at rest: select lines high, clock low, no transaction (R31, R33, R35). -/
def Pins.atRest (p : Pins) : Prop := p.csN = SelectLines.idle ∧ p.sck = false ∧ p.busy = false

/-- The pins are quiet when the lines are at rest and the block is ready. -/
theorem quiet_iff_atRest (p : Pins) : p.quiet = true ↔ p.atRest ∧ p.cmdReady = true := by
  simp [quiet_iff, Pins.atRest, and_assoc]

/-- Pins whose lines are at rest are lawful, whether a command executes or not. -/
theorem lawful_of_atRest {p : Pins} (h : p.atRest) : p.lawful = true := by
  obtain ⟨hcs, hsck, hbusy⟩ := h
  simp [Pins.lawful, hcs, hsck, hbusy, SelectLines.low, SelectLines.idle]

/-- A record of lawful pins stays one when the lines come to rest. -/
theorem lawful_append_atRest {ps : List Pins} {p : Pins} (h : ∀ q ∈ ps, q.lawful = true) (hp : p.atRest) :
    ∀ q ∈ ps ++ [p], q.lawful = true :=
  List.forall_mem_append.mpr ⟨h, List.forall_mem_singleton.mpr (lawful_of_atRest hp)⟩

theorem adcFrame_atRest {s : State} (l : SelectLine) (ch : BitVec 3) (h : s.pins.atRest) :
    (s.adcFrame l ch).2.pins.atRest := by
  simp [adcFrame_eq, Pins.atRest, h.1]

theorem dacFrame_atRest {s : State} (l : SelectLine) (w : Half) (h : s.pins.atRest) :
    (s.dacFrame l w).pins.atRest := by
  simp [dacFrame_eq, Pins.atRest, h.1]

theorem tookNative_atRest {s : State} (i : NativeIn) (h : s.pins.atRest) : (s.tookNative i).pins.atRest := by
  rwa [State.tookNative_pins]

theorem respond_atRest {s : State} (v : Config.Response) (h : s.pins.atRest) : (s.respond v).pins.atRest := h

/-- A bus command leaves the lines at rest as it found them (R35). -/
theorem BusEffect.atRest {s t : State} (h : BusEffect s t) (hs : s.pins.atRest) : t.pins.atRest := by
  cases h with
  | silent v => exact respond_atRest v hs
  | native i v => exact respond_atRest v (tookNative_atRest i hs)
  | adc l ch v => exact respond_atRest v (adcFrame_atRest l ch hs)
  | dac l w v => exact respond_atRest v (dacFrame_atRest l w hs)

/-! ### The frame of the bus commands -/

/-- A bus command reads no time and none of the pins of the encoder and the button. -/
theorem BusEffect.inputs_unread {s t : State} (h : BusEffect s t) :
    t.inputs.time = s.inputs.time ∧ t.inputs.encA = s.inputs.encA ∧ t.inputs.encB = s.inputs.encB ∧
      t.inputs.btnIn = s.inputs.btnIn := by
  cases h with
  | silent v => simp
  | native i v => cases i <;> simp
  | adc l ch v => simp [adcFrame_eq]
  | dac l w v => simp [dacFrame_eq]

/-- The same state with another Encoder and Button State. -/
def State.withUnits (s : State) (e : EncState) (b : BtnState) : State := { s with enc := e, btn := b }

section
variable (s : State) (e : EncState) (b : BtnState)

theorem respond_withUnits (v : Config.Response) : (s.withUnits e b).respond v = (s.respond v).withUnits e b := rfl

theorem nativeAin_withUnits (i : NativeIn) : (s.withUnits e b).nativeAin i = s.nativeAin i := by cases i <;> rfl

theorem tookNative_withUnits (i : NativeIn) :
    (s.withUnits e b).tookNative i = (s.tookNative i).withUnits e b := by cases i <;> rfl

theorem adcFrame_withUnits (l : SelectLine) (ch : BitVec 3) :
    (s.withUnits e b).adcFrame l ch = ((s.adcFrame l ch).1, (s.adcFrame l ch).2.withUnits e b) := by
  rw [adcFrame_eq, adcFrame_eq]; rfl

theorem dacFrame_withUnits (l : SelectLine) (w : Half) :
    (s.withUnits e b).dacFrame l w = (s.dacFrame l w).withUnits e b := by
  rw [dacFrame_eq, dacFrame_eq]; rfl

theorem readConverter_withUnits (l : SelectLine) (ch : Nat) :
    (s.withUnits e b).readConverter l ch = (s.readConverter l ch).withUnits e b := by
  by_cases h : ch ≤ 7
  · simp only [readConverter_inRange _ l h, adcFrame_withUnits, respond_withUnits]
  · simp only [readConverter_outOfRange _ l (Nat.lt_of_not_le h), respond_withUnits]

theorem writeConverter_withUnits (l : SelectLine) (ch val : Nat) :
    (s.withUnits e b).writeConverter l ch val = (s.writeConverter l ch val).withUnits e b := by
  by_cases h : ch ≤ 1
  · simp only [writeConverter_inRange _ l val h, dacFrame_withUnits, respond_withUnits]
  · simp only [writeConverter_outOfRange _ l val (Nat.lt_of_not_le h), respond_withUnits]

theorem readAnalog_withUnits (ch : Nat) : (s.withUnits e b).readAnalog ch = (s.readAnalog ch).withUnits e b := by
  unfold State.readAnalog
  split
  · exact readConverter_withUnits ..
  · rw [tookNative_withUnits, nativeAin_withUnits, respond_withUnits]
  · exact respond_withUnits ..

theorem writeCv_withUnits (ch val : Nat) : (s.withUnits e b).writeCv ch val = (s.writeCv ch val).withUnits e b := by
  unfold State.writeCv
  split
  · exact writeConverter_withUnits ..
  · exact respond_withUnits ..

/-- A bus command does the same whatever the units hold (R199). -/
theorem exec_withUnits {i : Instr} {t : State} (he : i ≠ .encpoll) (hb : i ≠ .btnpoll) (h : exec i s = .next t) :
    exec i (s.withUnits e b) = .next (t.withUnits e b) := by
  cases i with
  | rdconv sel ch => cases h; exact congrArg _ (readConverter_withUnits s e b sel ch)
  | wrconv sel ch val => cases h; exact congrArg _ (writeConverter_withUnits s e b sel ch val)
  | rdanalog ch => cases h; exact congrArg _ (readAnalog_withUnits s e b ch)
  | wrcv ch val => cases h; exact congrArg _ (writeCv_withUnits s e b ch val)
  | encpoll => exact absurd rfl he
  | btnpoll => exact absurd rfl hb

end

/-- Settles O30: each part is one fact about the effects of a bus command; that the units are not read is
`exec_withUnits`. -/
theorem busCommandsRetainNothing : Obligations.BusCommandsRetainNothing := by
  intro s i he hb hcs hsck hbusy
  obtain ⟨t, ht⟩ := exec_completes i s
  have heff := exec_busEffect he hb ht
  obtain ⟨tcs, tsck, tbusy⟩ := heff.atRest ⟨hcs, hsck, hbusy⟩
  obtain ⟨-, -, hhost, hsetup, hparams⟩ := heff.unchanged
  obtain ⟨htime, hencA, hencB, hbtnIn⟩ := heff.inputs_unread
  obtain ⟨txns, hbus, -⟩ := heff.bus_eq
  exact ⟨t, ht, tcs.trans hcs.symm, tsck.trans hsck.symm, tbusy.trans hbusy.symm, hhost, hsetup, hparams,
    ⟨_, hbus.symm⟩, htime, hencA, hencB, hbtnIn, fun e b => exec_withUnits s e b he hb ht⟩

/-! ### The forbidden encodings -/

theorem tickNone_ne_forbidden : tickNone ≠ 0b10#2 := by decide

theorem resultNone_ne_forbidden : resultNone ≠ 0b11#2 := by decide

/-- No sample gives the tick `0b10` (R24, R155). -/
theorem tickOf_ne_forbidden (prevA a b : Level) : tickOf prevA a b ≠ 0b10#2 := by
  revert prevA a b; decide

/-- No duration is classified as `0b11` (R29, R175). -/
theorem classify_ne_forbidden (d : Time) : classify d ≠ 0b11#2 := by
  unfold classify
  split
  · decide
  · decide

/-- An accepted sample keeps the result `0b11` out (R29). -/
theorem sampled_result_ne_forbidden {b : BtnState} (c : Level) (now : Time) (h : b.result ≠ 0b11#2) :
    (b.sampled c now).result ≠ 0b11#2 := by
  unfold BtnState.sampled
  split_ifs
  · exact h
  · exact classify_ne_forbidden _
  · exact h

/-! ### The invariant while a command executes

Between acceptance and response `cmd_ready` is 0; the rest of the invariant holds, and every shared operation keeps
it. -/

/-- What holds while a command executes and no transaction is open. -/
structure State.Executing (s : State) : Prop where
  atRest : s.pins.atRest
  cmdReady : s.pins.cmdReady = false
  tick : s.enc.tick ≠ 0b10#2
  result : s.btn.result ≠ 0b11#2
  bus : framed s.bus
  wave : ∀ p ∈ s.wave, p.lawful = true

/-- Taking the command enters the execution. -/
theorem accept_executing {s : State} (rest : List HostMove) (h : s.Inv) : (s.accept rest).Executing := by
  have hrest := ((quiet_iff_atRest _).mp h.quiet).1
  exact ⟨hrest, rfl, h.tick, h.result, h.bus,
    lawful_append_atRest h.wave hrest⟩

/-- The response ends the execution with the invariant. -/
theorem respond_inv {s : State} (v : Config.Response) (h : s.Executing) : (s.respond v).Inv :=
  ⟨(quiet_iff_atRest _).mpr ⟨h.atRest, rfl⟩, h.tick, h.result, h.bus,
    lawful_append_atRest h.wave h.atRest⟩

theorem tookTime_executing {s : State} (h : s.Executing) : s.tookTime.Executing := { h with }

theorem tookPin_executing {s : State} (i : InPin) (h : s.Executing) : (s.tookPin i).Executing := by
  cases i <;> exact { h with }

theorem tookNative_executing {s : State} (i : NativeIn) (h : s.Executing) : (s.tookNative i).Executing := by
  cases i <;> exact { h with }

theorem setEnc_executing {s : State} {e : EncState} (h : s.Executing) (he : e.tick ≠ 0b10#2) :
    (s.setEnc e).Executing := { h with tick := he }

theorem setBtn_executing {s : State} {b : BtnState} (h : s.Executing) (hb : b.result ≠ 0b11#2) :
    (s.setBtn b).Executing := { h with result := hb }

/-- A transaction moves the pins through lawful levels only. -/
theorem State.Executing.txnWave_lawful {s : State} {l : SelectLine} {bs : List Level} {m : Level} (h : s.Executing)
    (hb : bs ≠ []) : ∀ p ∈ s.wave ++ txnWave s.pins l bs m, p.lawful = true :=
  List.forall_mem_append.mpr
    ⟨h.wave, fun _ hp => Machine.txnWave_lawful hb h.atRest.1 h.atRest.2.1 h.cmdReady hp⟩

theorem adcFrame_executing {s : State} (l : SelectLine) (ch : BitVec 3) (h : s.Executing) :
    (s.adcFrame l ch).2.Executing where
  atRest := adcFrame_atRest l ch h.atRest
  cmdReady := by rw [adcFrame_eq]; exact h.cmdReady
  tick := by rw [adcFrame_eq]; exact h.tick
  result := by rw [adcFrame_eq]; exact h.result
  bus := by rw [adcFrame_bus]; exact framed_append_events h.bus _
  wave := by rw [adcFrame_eq]; exact h.txnWave_lawful (adcFrameBits_ne_nil ch)

theorem dacFrame_executing {s : State} (l : SelectLine) (w : Half) (h : s.Executing) :
    (s.dacFrame l w).Executing where
  atRest := dacFrame_atRest l w h.atRest
  cmdReady := by rw [dacFrame_eq]; exact h.cmdReady
  tick := by rw [dacFrame_eq]; exact h.tick
  result := by rw [dacFrame_eq]; exact h.result
  bus := by rw [dacFrame_bus]; exact framed_append_events h.bus _
  wave := by rw [dacFrame_eq]; exact h.txnWave_lawful (bitsMsb_ne_nil w)

/-! ### Every step keeps the invariant -/

theorem BusEffect.inv {s t : State} (h : BusEffect s t) (hs : s.Executing) : t.Inv := by
  cases h with
  | silent v => exact respond_inv v hs
  | native i v => exact respond_inv v (tookNative_executing i hs)
  | adc l ch v => exact respond_inv v (adcFrame_executing l ch hs)
  | dac l w v => exact respond_inv v (dacFrame_executing l w hs)

/-- ENCPOLL stores the tick none or that of a sample (R153, R155). -/
theorem encPoll_inv {s : State} (h : s.Executing) : s.encPoll.Inv := by
  by_cases hg : 3#32 ≤ s.timeNow - s.encBase
  · rw [encPoll_gateOpen s hg]
    exact respond_inv _ (setEnc_executing (tookPin_executing _ (tookPin_executing _ (tookTime_executing h)))
      (tickOf_ne_forbidden _ _ _))
  · rw [encPoll_gateShut s (BitVec.not_le.mp hg)]
    exact respond_inv _ (setEnc_executing (tookTime_executing h) tickNone_ne_forbidden)

/-- BTNPOLL clears the result and stores at most that of a sample (R171, R175). -/
theorem btnPoll_inv {s : State} (h : s.Executing) : s.btnPoll.Inv := by
  by_cases hg : 50#32 ≤ s.timeNow - s.btn.lastPoll
  · rw [btnPoll_gateOpen s hg]
    exact respond_inv _ (setBtn_executing (tookPin_executing _ (tookTime_executing h))
      (sampled_result_ne_forbidden _ _ resultNone_ne_forbidden))
  · rw [btnPoll_gateShut s (BitVec.not_le.mp hg)]
    exact respond_inv _ (setBtn_executing (tookTime_executing h) resultNone_ne_forbidden)

/-- Every command that completes from its accepted state reaches the invariant again. -/
theorem exec_inv {i : Instr} {s t : State} (hs : s.Executing) (h : exec i s = .next t) : t.Inv := by
  by_cases he : i = .encpoll
  · subst he; cases h; exact encPoll_inv hs
  by_cases hb : i = .btnpoll
  · subst hb; cases h; exact btnPoll_inv hs
  exact (exec_busEffect he hb h).inv hs

/-- The set-up drives the select lines and the clock to rest, where they already are (R225). -/
theorem setUpEvent_inv {s : State} (rest : List HostMove) (h : s.Inv) : (s.setUpEvent rest).Inv := by
  obtain ⟨⟨-, -, hbusy⟩, hready⟩ := (quiet_iff_atRest _).mp h.quiet
  have hrest : ({ s.pins with csN := SelectLines.idle, sck := false } : Pins).atRest := ⟨rfl, rfl, hbusy⟩
  exact ⟨(quiet_iff_atRest _).mpr ⟨hrest, hready⟩, h.tick, h.result, h.bus,
    lawful_append_atRest h.wave hrest⟩

/-- Settles O15: the pins after reset are quiet, both encodings are none, and both histories are empty. -/
theorem invariantHoldsAtReset : Obligations.InvariantHoldsAtReset := fun _ _ =>
  { quiet := rfl
    tick := tickNone_ne_forbidden
    result := resultNone_ne_forbidden
    bus := ⟨[], rfl⟩
    wave := List.forall_mem_nil _ }

/-- The reset event reaches the invariant from any state: it differs from reset in `MOSI` and in what is not the block's
(R39, R220). -/
theorem resetEvent_inv (s : State) (rest : List HostMove) : (s.resetEvent rest).Inv :=
  { invariantHoldsAtReset s.params.resetPrevA s.params.resetPrevBtn with quiet := rfl }

/-- Settles O16: by cases on the host's move. A command is taken into `State.Executing`, which its operations keep until
the response gives the invariant back. -/
theorem everyStepKeepsTheInvariant : Obligations.EveryStepKeepsTheInvariant := by
  intro s t hs h
  obtain ⟨-, rfl⟩ | ⟨rest, -, rfl⟩ | ⟨rest, -, -, rfl⟩ | ⟨w, rest, -, -, -, hw⟩ := step_cases h
  · exact hs
  · exact setUpEvent_inv rest hs
  · exact resetEvent_inv s rest
  · obtain ⟨i, -, hi⟩ | ⟨-, rfl⟩ := hw
    · exact exec_inv (accept_executing rest hs) hi
    · exact respond_inv _ (accept_executing rest hs)

end Sys2Proof.Machine
end

section
/-! Proofs: the bus (20_memory.md). The select-line discipline of every step, the bytes and words on the wire, what an
ADC read can answer, and the channels that reach the bus. -/

namespace Sys2Proof.Machine

/-! ### The select-line discipline -/

/-- What a step appended to the bus history, where it only appended. -/
theorem busSince_eq_of_append {s t : State} {es : List BusEvent} (h : t.bus = s.bus ++ es) : busSince s t = es := by
  rw [busSince, h, List.drop_left]

/-- A step that leaves the bus history as it was appended whole transactions, none. -/
theorem busSince_framed_of_bus_eq {s t : State} (h : t.bus = s.bus) : framed (busSince s t) :=
  ⟨[], busSince_eq_of_append (by rw [h, List.flatMap_nil, List.append_nil])⟩

/-- What one step appends to the bus history is whole transactions, from any state (R64). -/
theorem step_busSince_framed {s t : State} (h : step s = .next t) : framed (busSince s t) := by
  obtain ⟨-, rfl⟩ | ⟨rest, -, rfl⟩ | ⟨rest, -, -, rfl⟩ | ⟨w, rest, -, -, -, hw⟩ := step_cases h
  · exact busSince_framed_of_bus_eq rfl
  · exact busSince_framed_of_bus_eq rfl
  · exact ⟨[], List.drop_nil⟩
  · obtain ⟨i, -, hi⟩ | ⟨-, rfl⟩ := hw
    · obtain ⟨txns, hbus, -⟩ := (exec_effect hi).bus_eq
      exact ⟨txns, busSince_eq_of_append hbus⟩
    · exact busSince_framed_of_bus_eq rfl

/-- Settles O17: the whole history is framed by the invariant, what the step appended by `step_busSince_framed`, and
whole transactions keep the discipline. -/
theorem everyStepKeepsTheSelectLineDiscipline : Obligations.EveryStepKeepsTheSelectLineDiscipline := fun s t hs h =>
  ⟨framed_disciplined (everyStepKeepsTheInvariant s t hs h).bus, framed_disciplined (step_busSince_framed h)⟩

/-! ### Bytes and words on the wire -/

/-- What a state's pin-level view holds beyond an earlier one, where it was only appended to. -/
theorem waveSince_eq_of_append {s t : State} {ps : List Pins} (h : t.wave = s.wave ++ ps) : waveSince s t = ps := by
  rw [waveSince, h, List.drop_left]

/-- The bits of a word in the order sent are those of its high byte and then those of its low byte (R55). -/
theorem bitsMsb_half (w : Half) : bitsMsb w = bitsMsb (w.extractLsb' 8 8) ++ bitsMsb (w.extractLsb' 0 8) := by
  simp [bitsMsb_eq, List.range_succ]

/-- Settles O31: the word's bits are those of its two bytes, and clocking bits out goes over a concatenation. -/
theorem aWordIsItsHighByteThenItsLowByte : Obligations.AWordIsItsHighByteThenItsLowByte := by
  intro s w
  simp only [spiXfer16_eq, spiXfer8_eq, bitsMsb_half w]
  constructor
  · simp [pulses_append]
  · simp [pinsAfterBits_append]

/-- A byte transfer leaves the clock low (R60). -/
theorem spiXfer8_sck (s : State) (m : Byte) : (s.spiXfer8 m).2.pins.sck = false := by
  obtain ⟨b, hb⟩ := pinsAfterBits_frame s.pins (bitsMsb m) (bitsMsb_ne_nil m)
  simp [spiXfer8_eq, hb]

/-- A byte transfer that starts with the clock low clocks out the bits of the byte sent (R60). -/
theorem clockedOut_spiXfer8 (s : State) (m : Byte) (h : s.pins.sck = false) :
    clockedOut false (waveSince s (s.spiXfer8 m).2) = bitsMsb m := by
  rw [waveSince_eq_of_append (ps := pulses s.pins (bitsMsb m)) (by simp [spiXfer8_eq])]
  simpa [clockedOut] using clockedOut_pulses s.pins (bitsMsb m) [] h

/-- Settles O32: each part is one fact about `SpiXfer8`, which `spiXfer8_eq` states whole. -/
theorem byteTransferIsMostSignificantBitFirst : Obligations.ByteTransferIsMostSignificantBitFirst := by
  intro s m h
  refine ⟨(clockedOut_spiXfer8 s m h).trans (bitsMsb_eq m), fun k hk => ?_, by simp [spiXfer8_eq], spiXfer8_sck s m⟩
  have hk' : 0 + (7 - (7 - k)) = k := by omega
  rw [spiXfer8_eq, misoByte_getLsbD s 0 (by omega), hk']

/-! ### The ADC frame on the wire -/

/-- RDCONV on a channel in range, from its start to its response (R110). -/
theorem exec_rdconv_inRange (s : State) (sel : SelectLine) {ch : Nat} (h : ch ≤ 7) :
    exec (.rdconv sel ch) s =
      .next ((s.adcFrame sel (adcLocal ch)).2.respond (readResponse (s.adcFrame sel (adcLocal ch)).1)) :=
  congrArg Host.Outcome.next (readConverter_inRange s sel h)

/-- An ADC read that starts with the clock low clocks out the frame's bits; the response moves no clock (R57, R91). -/
theorem clockedOut_adcFrame_respond (s : State) (l : SelectLine) (ch : BitVec 3) (v : Config.Response)
    (h : s.pins.sck = false) :
    clockedOut false (waveSince s ((s.adcFrame l ch).2.respond v)) = adcFrameBits ch := by
  have hwave : ((s.adcFrame l ch).2.respond v).wave =
      s.wave ++ (txnWave s.pins l (adcFrameBits ch) (Config.idleMosi (s.draws + 24)) ++
        [((s.adcFrame l ch).2.respond v).pins]) := by
    simp [adcFrame_eq]
  rw [waveSince_eq_of_append hwave, clockedOut_txnWave _ _ _ _ _ (adcFrameBits_ne_nil ch) h]
  simp [clockedOut, adcFrame_eq]

/-- The 24 bits of an ADC frame, written out (R91). -/
theorem adcFrameBits_eq (ch : BitVec 3) :
    adcFrameBits ch =
      [false, false, false, false, false, false, false, true,
        true, ch.getLsbD 2, ch.getLsbD 1, ch.getLsbD 0, false, false, false, false,
        false, false, false, false, false, false, false, false] := by
  revert ch; decide

/-- Settles O25: the frame is the transaction of `adcFrame_eq`, and it clocks out the bits of its three bytes. -/
theorem rdconvClocksOutTheFrame : Obligations.RdconvClocksOutTheFrame := by
  intro s sel ch h
  have hlocal : adcLocal ch.toNat = ch := by simp [adcLocal]
  refine ⟨_, exec_rdconv_inRange s sel (Nat.le_of_lt_succ ch.isLt), ?_⟩
  rw [clockedOut_adcFrame_respond s sel _ _ h, hlocal, adcFrameBits_eq]

/-! ### What an ADC read can answer -/

/-- The bits of an ADC result: those of the third byte, and above them the low two of the second (R92). -/
theorem adcResult_getLsbD (r2 r3 : Byte) {k : Nat} (h : k < 10) :
    (adcResult r2 r3).getLsbD k = if k < 8 then r3.getLsbD k else r2.getLsbD (k - 8) := by
  interval_cases k <;> simp [adcResult, Config.adcResultW]

/-- Bit `k` of an ADC result is sample `23 - k` of the frame (R92). -/
theorem adcFrame_result_getLsbD (s : State) (l : SelectLine) (ch : BitVec 3) {k : Nat} (h : k < 10) :
    (s.adcFrame l ch).1.getLsbD k = s.misoAt (23 - k) := by
  rw [adcFrame_eq, adcResult_getLsbD _ _ h]
  split_ifs with h8
  · rw [misoByte_getLsbD s 16 h8, show 16 + (7 - k) = 23 - k by omega]
  · rw [misoByte_getLsbD s 8 (by omega), show 8 + (7 - (k - 8)) = 23 - k by omega]

/-- Where the answers of `MISO` are the bits of `v`, first sample first, a sample is a bit of `v`. -/
theorem misoAt_of_bitsMsb {s : State} {n : Nat} {v : BitVec n} (h : s.inputs.miso = bitsMsb v) {k : Nat} (hk : k < n) :
    s.misoAt k = v.getLsbD (n - 1 - k) := by
  simp [State.misoAt, h, bitsMsb_eq, hk]

/-- The samples of `MISO` that are the bits of `v` below fourteen zeros make an ADC frame yield `v` (R92, R113). -/
theorem adcFrame_result_of_miso {s : State} (l : SelectLine) (ch : BitVec 3) {v : BitVec Config.adcResultW}
    (h : s.inputs.miso = bitsMsb (v.setWidth 24)) : (s.adcFrame l ch).1 = v := by
  refine BitVec.eq_of_getLsbD_eq fun k hk => ?_
  have hk10 : k < 10 := hk
  have hidx : 24 - 1 - (23 - k) = k := by omega
  rw [adcFrame_result_getLsbD s l ch hk10, misoAt_of_bitsMsb h (by omega), hidx, BitVec.getLsbD_setWidth,
    decide_eq_true (show k < 24 by omega), Bool.true_and]

/-- Settles O23: the samples of `adcFrame_result_of_miso` yield any value, and no result is `INVALID`. -/
theorem rdconvCanAnswerEveryTenBitValue : Obligations.RdconvCanAnswerEveryTenBitValue := by
  intro s sel ch h
  constructor
  · intro v
    refine ⟨bitsMsb (v.setWidth 24), _, exec_rdconv_inRange _ sel h, ?_⟩
    rw [adcFrame_result_of_miso sel (adcLocal ch) rfl]
    exact respond_responded _ _
  · exact ⟨_, _, exec_rdconv_inRange s sel h, respond_responded _ _, readResponse_ne_invalid _⟩

/-! ### The channels that reach the bus -/

theorem readConverter_bus_outOfRange (s : State) (l : SelectLine) {ch : Nat} (h : 8 ≤ ch) :
    (s.readConverter l ch).bus = s.bus := by
  rw [readConverter_outOfRange s l h, State.respond_bus]

theorem writeConverter_bus_outOfRange (s : State) (l : SelectLine) {ch : Nat} (val : Nat) (h : 2 ≤ ch) :
    (s.writeConverter l ch val).bus = s.bus := by
  rw [writeConverter_outOfRange s l val h, State.respond_bus]

/-- From channel 16 on, a logical read goes to no converter: it is native or out of range (R131, R132). -/
theorem analogRoute_ne_converter {ch : Nat} (h : 16 ≤ ch) (l : SelectLine) (dch : Nat) :
    analogRoute ch ≠ some (.converter l dch) := by
  obtain rfl | rfl | h18 : ch = 16 ∨ ch = 17 ∨ 18 ≤ ch := by omega
  · simp [analogRoute_ain0]
  · simp [analogRoute_ain1]
  · simp [analogRoute_none h18]

theorem readAnalog_bus_outOfRange (s : State) {ch : Nat} (h : 16 ≤ ch) : (s.readAnalog ch).bus = s.bus := by
  unfold State.readAnalog
  split
  · next l dch hroute => exact absurd hroute (analogRoute_ne_converter h l dch)
  · rw [State.respond_bus, State.tookNative_bus]
  · rw [State.respond_bus]

theorem writeCv_bus_outOfRange (s : State) {ch : Nat} (val : Nat) (h : 4 ≤ ch) : (s.writeCv ch val).bus = s.bus := by
  simp [State.writeCv, cvRoute_none h]

/-- ENCPOLL moves nothing on the bus (R150). -/
theorem encPoll_bus (s : State) : s.encPoll.bus = s.bus := by
  by_cases hg : 3#32 ≤ s.timeNow - s.encBase
  · simp [encPoll_gateOpen s hg]
  · simp [encPoll_gateShut s (BitVec.not_le.mp hg)]

/-- BTNPOLL moves nothing on the bus (R170). -/
theorem btnPoll_bus (s : State) : s.btnPoll.bus = s.bus := by
  by_cases hg : 50#32 ≤ s.timeNow - s.btn.lastPoll
  · simp [btnPoll_gateOpen s hg]
  · simp [btnPoll_gateShut s (BitVec.not_le.mp hg)]

/-- Settles O39: by cases on the command; each lemma above says that out of its range the bus history stays as it was. -/
theorem onlyAnInRangeChannelReachesTheBus : Obligations.OnlyAnInRangeChannelReachesTheBus := by
  intro s t i h hbus
  cases i with cases h
  | rdconv sel ch =>
    exact .inl ⟨sel, ch, rfl, Nat.le_of_not_lt fun hch => hbus (readConverter_bus_outOfRange s sel hch)⟩
  | wrconv sel ch val =>
    exact .inr (.inl ⟨sel, ch, val, rfl, Nat.le_of_not_lt fun hch => hbus (writeConverter_bus_outOfRange s sel val hch)⟩)
  | rdanalog ch =>
    exact .inr (.inr (.inl ⟨ch, rfl, Nat.le_of_not_lt fun hch => hbus (readAnalog_bus_outOfRange s hch)⟩))
  | wrcv ch val =>
    exact .inr (.inr (.inr ⟨ch, val, rfl, Nat.le_of_not_lt fun hch => hbus (writeCv_bus_outOfRange s val hch)⟩))
  | encpoll => exact absurd (encPoll_bus s) hbus
  | btnpoll => exact absurd (btnPoll_bus s) hbus

end Sys2Proof.Machine
end

section
/-! Proofs: the encodings (30_encoding.md). The command word and its decoding, the response of a presented word, the
bytes and the answer of an ADC read, and the word of a DAC write. -/

namespace Sys2Proof

/-! ### The command word -/

/-- A channel's field holds the channel (R81). -/
theorem toNat_ofNat_of_channelFits {ch : Nat} (h : channelFits ch = true) : (BitVec.ofNat 8 ch).toNat = ch :=
  Nat.mod_eq_of_lt (of_decide_eq_true h)

/-- A value's field holds the value (R81). -/
theorem toNat_ofNat_of_valueFits {val : Nat} (h : valueFits val = true) : (BitVec.ofNat 16 val).toNat = val :=
  Nat.mod_eq_of_lt (of_decide_eq_true h)

/-- Settles O1: the fields of the packed word are those it was packed from, its opcode leaves one row of the opcode map,
and operands that fit come back whole. -/
theorem decodeOfEncodeIsTheCommand : Obligations.DecodeOfEncodeIsTheCommand := by
  intro i h
  cases i with
  | rdconv sel ch =>
    simp [encode, decode_eq, rowRdconv, toNat_ofNat_of_channelFits h]
  | wrconv sel ch val =>
    obtain ⟨hch, hval⟩ := Bool.and_eq_true_iff.mp h
    simp [encode, decode_eq, rowWrconv, toNat_ofNat_of_channelFits hch, toNat_ofNat_of_valueFits hval]
  | rdanalog ch =>
    simp [encode, decode_eq, rowRdanalog, toNat_ofNat_of_channelFits h]
  | wrcv ch val =>
    obtain ⟨hch, hval⟩ := Bool.and_eq_true_iff.mp h
    simp [encode, decode_eq, rowWrcv, toNat_ofNat_of_channelFits hch, toNat_ofNat_of_valueFits hval]
  | encpoll => simp [encode, decode_eq, rowEncpoll]
  | btnpoll => simp [encode, decode_eq, rowBtnpoll]

/-! ### The rows of the opcode map, one for all -/

/-- A property of every row of the opcode map is one of each of the six. -/
theorem forall_mem_opcodeMap {P : OpcodeRow → Prop} : (∀ r ∈ opcodeMap, P r) ↔
    P rowRdconv ∧ P rowWrconv ∧ P rowRdanalog ∧ P rowWrcv ∧ P rowEncpoll ∧ P rowBtnpoll := by
  simp [opcodeMap]

/-- Whatever a row reads from a word fits its fields (R83). -/
theorem build_wellFormed (c : Word) : ∀ r ∈ opcodeMap, (r.build c).wellFormed = true := by
  have hch : channelFits (chField c).toNat = true := decide_eq_true (chField c).isLt
  have hval : valueFits (valField c).toNat = true := decide_eq_true (valField c).isLt
  have hboth := Bool.and_eq_true_iff.mpr ⟨hch, hval⟩
  exact forall_mem_opcodeMap.mpr ⟨hch, hboth, hch, hboth, rfl, rfl⟩

/-- A word that hits a row is the encoding of the command the row reads from it: the fields that the row does not read
are fixed by its mask and match (R82). -/
theorem encode_build (c : Word) : ∀ r ∈ opcodeMap, c &&& r.mask = r.pattern → encode (r.build c) = c := by
  refine forall_mem_opcodeMap.mpr ⟨fun h => ?_, fun h => ?_, fun h => ?_, fun h => ?_, fun h => ?_, fun h => ?_⟩
  · obtain ⟨hop, hrsv, hval⟩ := (hits_rdconv c).mp h
    simpa [encode, rowRdconv, hop, hval] using cmd32_fields c hrsv
  · obtain ⟨hop, hrsv⟩ := (hits_wrconv c).mp h
    simpa [encode, rowWrconv, hop] using cmd32_fields c hrsv
  · obtain ⟨hop, hsel, hrsv, hval⟩ := (hits_rdanalog c).mp h
    simpa [encode, rowRdanalog, hop, hsel, hval] using cmd32_fields c hrsv
  · obtain ⟨hop, hsel, hrsv⟩ := (hits_wrcv c).mp h
    simpa [encode, rowWrcv, hop, hsel] using cmd32_fields c hrsv
  · obtain ⟨hop, hsel, hrsv, hch, hval⟩ := (hits_encpoll c).mp h
    simpa [encode, rowEncpoll, hop, hsel, hch, hval] using cmd32_fields c hrsv
  · obtain ⟨hop, hsel, hrsv, hch, hval⟩ := (hits_btnpoll c).mp h
    simpa [encode, rowBtnpoll, hop, hsel, hch, hval] using cmd32_fields c hrsv

/-- A word that hits a row decodes to that row's command, whichever row it is: the word is the command's encoding. -/
theorem decode_of_mem_opcodeMap {c : Word} {r : OpcodeRow} (hr : r ∈ opcodeMap) (h : c &&& r.mask = r.pattern) :
    decode c = .ok (r.build c) := by
  conv_lhs => rw [← encode_build c r hr h]
  exact decodeOfEncodeIsTheCommand _ (build_wellFormed c r hr)

/-- A word that decodes hits a row, and the command is what the row reads from it. -/
theorem exists_row_of_decode_ok {c : Word} {i : Instr} (h : decode c = .ok i) :
    ∃ r ∈ opcodeMap, c &&& r.mask = r.pattern ∧ r.build c = i := by
  unfold decode at h
  split at h
  · next r hfind =>
    cases h
    have hhit : r.hits c = true := List.find?_some (p := (OpcodeRow.hits · c)) hfind
    exact ⟨r, List.mem_of_find?_eq_some hfind, eq_of_beq hhit, rfl⟩
  · cases h

/-- A word that hits no row is rejected (R83, R86). -/
theorem decode_eq_error_of_no_row {c : Word} (h : ∀ r ∈ opcodeMap, c &&& r.mask ≠ r.pattern) :
    ∃ e, decode c = .error e := by
  cases hd : decode c with
  | error e => exact ⟨e, rfl⟩
  | ok i =>
    obtain ⟨r, hr, hhit, -⟩ := exists_row_of_decode_ok hd
    exact absurd hhit (h r hr)

/-- Settles O2: the word hits a row, whose command is well formed and encodes to it; by O1 no other command does. -/
theorem encodeOfDecodeIsTheWord : Obligations.EncodeOfDecodeIsTheWord := by
  intro c i h
  obtain ⟨r, hr, hhit, rfl⟩ := exists_row_of_decode_ok h
  refine ⟨build_wellFormed c r hr, encode_build c r hr hhit, fun j hj hjc => ?_⟩
  have hdecode : decode c = .ok j := hjc ▸ decodeOfEncodeIsTheCommand j hj
  exact Except.ok.inj (hdecode.symm.trans h)

/-- Settles O3: the rule for each row is `decode_of_mem_opcodeMap` at that row. -/
theorem decodingFollowsTheOpcodeMap : Obligations.DecodingFollowsTheOpcodeMap := by
  refine ⟨⟨rfl, rfl, rfl, rfl⟩, fun c => ?_⟩
  obtain ⟨rdconv, wrconv, rdanalog, wrcv, encpoll, btnpoll⟩ := forall_mem_opcodeMap.mp
    fun r hr => decode_of_mem_opcodeMap (c := c) hr
  exact ⟨rdconv, wrconv, rdanalog, wrcv, encpoll, btnpoll, fun h1 h2 h3 h4 h5 h6 =>
    decode_eq_error_of_no_row (forall_mem_opcodeMap.mpr ⟨h1, h2, h3, h4, h5, h6⟩)⟩

/-- Settles O4: the decoder run on the six words. -/
theorem workedExamplesDecode : Obligations.WorkedExamplesDecode := ⟨rfl, rfl, rfl, rfl, rfl, rfl⟩

/-! ### The illegal words -/

/-- The words that R86 lists as illegal: a reserved opcode, or a nonzero field that must be zero. -/
def illegalWord (c : Word) : Prop :=
  opField c = 0#4 ∨ 7#4 ≤ opField c ∨ rsvField c ≠ 0#2 ∨ (opField c = 1#4 ∧ valField c ≠ 0#16) ∨
    (opField c = 3#4 ∧ (selField c ≠ 0#2 ∨ valField c ≠ 0#16)) ∨ (opField c = 4#4 ∧ selField c ≠ 0#2) ∨
    (5#4 ≤ opField c ∧ (selField c ≠ 0#2 ∨ chField c ≠ 0#8 ∨ valField c ≠ 0#16))

/-- An illegal word is rejected: each row fixes the fields of a word that hits it to values that R86 does not list. -/
theorem decode_eq_error_of_illegalWord {c : Word} (hill : illegalWord c) : ∃ e, decode c = .error e := by
  unfold illegalWord at hill
  refine decode_eq_error_of_no_row (forall_mem_opcodeMap.mpr
    ⟨fun h => ?_, fun h => ?_, fun h => ?_, fun h => ?_, fun h => ?_, fun h => ?_⟩)
  · obtain ⟨hop, hrsv, hval⟩ := (hits_rdconv c).mp h
    simp [hop, hrsv, hval] at hill
  · obtain ⟨hop, hrsv⟩ := (hits_wrconv c).mp h
    simp [hop, hrsv] at hill
  · obtain ⟨hop, hsel, hrsv, hval⟩ := (hits_rdanalog c).mp h
    simp [hop, hsel, hrsv, hval] at hill
  · obtain ⟨hop, hsel, hrsv⟩ := (hits_wrcv c).mp h
    simp [hop, hsel, hrsv] at hill
  · obtain ⟨hop, hsel, hrsv, hch, hval⟩ := (hits_encpoll c).mp h
    simp [hop, hsel, hrsv, hch, hval] at hill
  · obtain ⟨hop, hsel, hrsv, hch, hval⟩ := (hits_btnpoll c).mp h
    simp [hop, hsel, hrsv, hch, hval] at hill

end Sys2Proof

namespace Sys2Proof.Machine

/-- A word that is rejected answers `INVALID` from the state in which it is taken (R86). -/
theorem runCommand_of_decode_error {w : Word} {e : Reject} (rest : List HostMove) (s : State)
    (h : decode w = .error e) : runCommand w rest s = .next (s.accept rest).illegalCommand := by
  rw [runCommand, h]

/-- Settles O6: the word is rejected, and taking and answering it drive the host port only, as the laws of
`State.accept` and `State.respond` say. -/
theorem illegalCommandAnswersInvalidAndDoesNothing : Obligations.IllegalCommandAnswersInvalidAndDoesNothing := by
  intro s c rest h hs hc hill
  obtain ⟨e, he⟩ := decode_eq_error_of_illegalWord hill
  refine ⟨(s.accept rest).illegalCommand, ?_, respond_responded _ _, rfl, rfl, rfl, rfl, rfl, rfl, rfl, rfl, rfl,
    { s.pins with cmdReady := false, rspValid := false }, rfl, ?_⟩
  · rw [step_of_command h hs hc, runCommand_of_decode_error rest s he]
  · exact List.append_assoc s.wave [_] [_]

/-! ### The one response of a presented word -/

/-- A presented word, legal or not, completes with one of the effects of a command. -/
theorem runCommand_effect (w : Word) (rest : List HostMove) (s : State) :
    ∃ t, runCommand w rest s = .next t ∧ Effect (s.accept rest) t := by
  cases hd : decode w with
  | ok i =>
    obtain ⟨t, ht⟩ := exec_completes i (s.accept rest)
    exact ⟨t, (runCommand_of_decode_ok rest s hd).trans ht, exec_effect ht⟩
  | error e => exact ⟨_, runCommand_of_decode_error rest s hd, .bus (.silent _)⟩

/-- A command leaves what the host does next and the set-up as they were. -/
theorem Effect.host_setupDone_eq {s t : State} (h : Effect s t) : t.host = s.host ∧ t.setupDone = s.setupDone := by
  cases h with
  | bus h =>
    obtain ⟨-, -, hhost, hsetup, -⟩ := h.unchanged
    exact ⟨hhost, hsetup⟩
  | enc e i d v => exact ⟨rfl, rfl⟩
  | btn b i d v => exact ⟨rfl, rfl⟩

/-- A command leaves the serial lines at rest as it found them. -/
theorem Effect.atRest {s t : State} (h : Effect s t) (hs : s.pins.atRest) : t.pins.atRest := by
  cases h with
  | bus h => exact h.atRest hs
  | enc e i d v => exact hs
  | btn b i d v => exact hs

/-- A transaction moves nothing of the host port (R33). -/
theorem hostPort_of_mem_txnWave {p q : Pins} {l : SelectLine} {bs : List Level} {m : Level} (hb : bs ≠ [])
    (h : q ∈ txnWave p l bs m) : q.rspValid = p.rspValid ∧ q.cmdReady = p.cmdReady := by
  obtain rfl | ⟨a, b, rfl⟩ | ⟨b, c, rfl⟩ := mem_txnWave hb h
  · exact ⟨rfl, rfl⟩
  · exact ⟨rfl, rfl⟩
  · exact ⟨rfl, rfl⟩

/-- From `s` to `t` the host port moves once, at the end: there a response is given, and in every entry of the pin-level
view before it `rsp_valid` and `cmd_ready` are as in `s`. -/
def State.respondsOnce (s t : State) : Prop :=
  (∃ v, t.responded v) ∧ ∃ before, t.wave = s.wave ++ before ++ [t.pins] ∧
    ∀ p ∈ before, p.rspValid = s.pins.rspValid ∧ p.cmdReady = s.pins.cmdReady

/-- A response at once is the one move of the host port. -/
theorem respond_respondsOnce {s u : State} {before : List Pins} (v : Config.Response)
    (hwave : u.wave = s.wave ++ before)
    (hport : ∀ p ∈ before, p.rspValid = s.pins.rspValid ∧ p.cmdReady = s.pins.cmdReady) :
    s.respondsOnce (u.respond v) :=
  ⟨⟨v, respond_responded u v⟩, before, by rw [State.respond_wave, hwave, State.respond_pins], hport⟩

/-- A command responds once, whichever effect it has (R84). -/
theorem Effect.respondsOnce {s t : State} (h : Effect s t) : s.respondsOnce t := by
  have hnone : ∀ p ∈ ([] : List Pins), p.rspValid = s.pins.rspValid ∧ p.cmdReady = s.pins.cmdReady :=
    List.forall_mem_nil _
  cases h with
  | enc e i d v => exact respond_respondsOnce v (List.append_nil _).symm hnone
  | btn b i d v => exact respond_respondsOnce v (List.append_nil _).symm hnone
  | bus h =>
    cases h with
    | silent v => exact respond_respondsOnce v (List.append_nil _).symm hnone
    | native i v => exact respond_respondsOnce v (by simp) hnone
    | adc l ch v =>
      exact respond_respondsOnce v (by rw [adcFrame_eq]) fun p => hostPort_of_mem_txnWave (adcFrameBits_ne_nil ch)
    | dac l w v =>
      exact respond_respondsOnce v (by rw [dacFrame_eq]) fun p => hostPort_of_mem_txnWave (bitsMsb_ne_nil w)

/-- Settles O9: the accepted state has no valid response and is not ready, and from it the command responds once. -/
theorem everyCommandEndsWithOneResponse : Obligations.EveryCommandEndsWithOneResponse := by
  intro s w rest h hs hc
  obtain ⟨t, ht, heff⟩ := runCommand_effect w rest s
  obtain ⟨⟨v, hv⟩, before, hwave, hport⟩ := heff.respondsOnce
  refine ⟨t, v, (step_of_command h hs hc).trans ht, hv, heff.host_setupDone_eq.1,
    (s.accept rest).pins :: before, ?_, List.forall_mem_cons.mpr ⟨⟨rfl, rfl⟩, hport⟩⟩
  rw [hwave, State.accept_wave, State.accept_pins, List.append_assoc s.wave, List.singleton_append]

/-! ### A block at rest runs on -/

theorem ready_iff (s : State) :
    s.ready = true ↔ s.setupDone = true ∧ s.pins.atRest ∧ s.pins.cmdReady = true := by
  rw [State.ready, Bool.and_eq_true_iff, quiet_iff_atRest]

/-- A presented word leaves a block at rest ready again: the lines are where they were, and the response raises
`cmd_ready`. -/
theorem runCommand_ready {s : State} (w : Word) (rest : List HostMove) (h : s.ready = true) :
    ∃ t, runCommand w rest s = .next t ∧ t.ready = true := by
  obtain ⟨hsetup, hrest, -⟩ := (ready_iff s).mp h
  obtain ⟨t, ht, heff⟩ := runCommand_effect w rest s
  obtain ⟨⟨v, -, -, hready⟩, -⟩ := heff.respondsOnce
  exact ⟨t, ht, (ready_iff t).mpr ⟨heff.host_setupDone_eq.2.trans hsetup, heff.atRest hrest, hready⟩⟩

/-- The set-up, while `cmd_ready` is 1 and no transaction runs, leaves the block ready (R225). -/
theorem setUpEvent_ready {s : State} (rest : List HostMove) (h : s.ready = true) :
    (s.setUpEvent rest).ready = true := by
  obtain ⟨-, ⟨-, -, hbusy⟩, hready⟩ := (ready_iff s).mp h
  exact (ready_iff _).mpr ⟨rfl, ⟨rfl, rfl, hbusy⟩, hready⟩

/-- The reset event leaves a block whose set-up is done ready (R39, R220). -/
theorem resetEvent_ready {s : State} (rest : List HostMove) (h : s.ready = true) :
    (s.resetEvent rest).ready = true := by
  obtain ⟨hsetup, -, -⟩ := (ready_iff s).mp h
  exact (ready_iff _).mpr ⟨hsetup, ⟨rfl, rfl, rfl⟩, rfl⟩

/-- Settles O10: by cases on the host's next move. -/
theorem blockAtRestAlwaysSteps : Obligations.BlockAtRestAlwaysSteps := by
  intro s h
  obtain ⟨hsetup, -, hready⟩ := (ready_iff s).mp h
  match hhost : s.host with
  | [] => exact ⟨s, nothingHappensWithoutTheHost s hhost, h⟩
  | .setUp :: rest => exact ⟨s.setUpEvent rest, by rw [step, hhost], setUpEvent_ready rest h⟩
  | .rst :: rest => exact ⟨s.resetEvent rest, step_of_rst hhost hready, resetEvent_ready rest h⟩
  | .command w :: rest =>
    rw [step_of_command hhost hsetup hready]
    exact runCommand_ready w rest h

/-- A run of one more step is a step and then the run from where it leads. -/
theorem run_succ_of_step {s t : State} (n : Nat) (h : step s = .next t) : core.run (n + 1) s = core.run n t := by
  have hcore : core.step s = .next t := h
  simp only [Host.Core.run, hcore]

/-- Settles O11: by induction on the number of steps; each is O10 at the state reached. -/
theorem blockAtRestRunsWithoutEnd : Obligations.BlockAtRestRunsWithoutEnd := by
  intro n
  induction n with
  | zero => exact fun s h => ⟨s, rfl, h⟩
  | succ n ih =>
    intro s h
    obtain ⟨t, ht, htready⟩ := blockAtRestAlwaysSteps s h
    rw [run_succ_of_step n ht]
    exact ih t htready

/-! ### The bytes and the answer of an ADC read -/

/-- Settles O20: the parameters of R90, and its formulas over the eight channels. -/
theorem adcFrameBytesAreThoseOfTheTable : Obligations.AdcFrameBytesAreThoseOfTheTable := by
  refine ⟨rfl, rfl, fun ch => ⟨rfl, ?_⟩, rfl⟩
  revert ch; decide

/-- The events an ADC read appends, the command byte by R112's formula. -/
theorem readConverter_bus_inRange (s : State) (l : SelectLine) {ch : Nat} (h : ch ≤ 7) :
    (s.readConverter l ch).bus = s.bus ++ adcEvents l ch (s.misoByte 0) (s.misoByte 8) (s.misoByte 16) := by
  rw [readConverter_inRange s l h, State.respond_bus, adcFrame_bus, adcEvents, ← adcCommandByte_eq h]
  rfl

/-- The answer of an ADC read, by R92's formula. -/
theorem readConverter_responded_inRange (s : State) (l : SelectLine) {ch : Nat} (h : ch ≤ 7) :
    (s.readConverter l ch).responded (adcAnswer (s.misoByte 8) (s.misoByte 16)) := by
  rw [readConverter_inRange s l h, ← readResponse_adcResult, adcFrame_eq]
  exact respond_responded _ _

/-- The bits of a read's response: those of the result, and zeros above them (R85). -/
theorem readResponse_getLsbD (v : BitVec Config.adcResultW) (k : Nat) :
    (readResponse v).getLsbD k = if k < 10 then v.getLsbD k else false := by
  rw [readResponse, BitVec.getLsbD_setWidth]
  split_ifs with h
  · rw [decide_eq_true (show k < 16 by omega), Bool.true_and]
  · rw [BitVec.getLsbD_of_ge v k (Nat.le_of_not_lt h), Bool.and_false]

/-- Settles O22: the bits of the response are those of the frame's result, which `adcFrame_result_getLsbD` gives as
samples. -/
theorem rdconvAnswersTheLastTenBits : Obligations.RdconvAnswersTheLastTenBits := by
  intro s sel ch h
  have hrsp : (s.readConverter sel ch).pins.rsp = readResponse (s.adcFrame sel (adcLocal ch)).1 := by
    rw [readConverter_inRange s sel h, State.respond_pins]
  refine ⟨_, rfl, readConverter_bus_inRange s sel h, readConverter_responded_inRange s sel h, fun k => ?_, ?_⟩
  · rw [hrsp, readResponse_getLsbD]
    split_ifs with hk
    · exact adcFrame_result_getLsbD s sel _ hk
    · rfl
  · exact hrsp ▸ readResponse_le _

/-- RDANALOG on a channel of ADC A or ADC B is a read of that converter (R130). -/
theorem exec_rdanalog_converter (s : State) {ch : Nat} (h : ch ≤ 15) :
    exec (.rdanalog ch) s =
      .next (s.readConverter (if ch ≤ 7 then .adcA else .adcB) (if ch ≤ 7 then ch else ch - 8)) := by
  have hroute : analogRoute ch =
      some (.converter (if ch ≤ 7 then .adcA else .adcB) (if ch ≤ 7 then ch else ch - 8)) := by
    split_ifs with h7
    · exact analogRoute_adcA h7
    · exact analogRoute_adcB (Nat.lt_of_not_le h7) h
  rw [exec, execRdanalog, State.readAnalog, hroute]

/-- Settles O33: the routed read has a device-local channel in range, and no answer of a read is `INVALID`. -/
theorem rdanalogReadsTheRoutedConverter : Obligations.RdanalogReadsTheRoutedConverter := by
  intro s ch h
  have hlocal : (if ch ≤ 7 then ch else ch - 8) ≤ 7 := by split_ifs <;> omega
  have hanswer := readConverter_responded_inRange s (if ch ≤ 7 then .adcA else .adcB) hlocal
  refine ⟨_, exec_rdanalog_converter s h, readConverter_bus_inRange s _ hlocal, hanswer, ?_⟩
  rw [hanswer.1, ← readResponse_adcResult]
  exact readResponse_ne_invalid _

/-! ### The word of a DAC write -/

/-- A clamped value is twelve bits, zero-extended (R94, R96). -/
theorem ofNat_clamped_eq_setWidth (val : Nat) :
    BitVec.ofNat 16 (min val 4095) = (BitVec.ofNat 12 (min val 4095)).setWidth 16 :=
  BitVec.eq_of_toNat_eq (by simp)

/-- The low field of twelve bits, zero-extended, is those bits. -/
theorem extractLsb'_low_setWidth (v : BitVec 12) : (v.setWidth 16).extractLsb' 0 12 = v :=
  BitVec.eq_of_getLsbD_eq fun k hk => by simp [hk, show k < 16 by omega]

/-- The top field of twelve bits, zero-extended, is zero. -/
theorem extractLsb'_top_setWidth (v : BitVec 12) : (v.setWidth 16).extractLsb' 12 4 = 0#4 :=
  BitVec.eq_of_getLsbD_eq fun k hk => by simp [hk]

/-- The mask of R94 takes nothing from a clamped value. -/
theorem dacWord_eq (cfg : Half) (val : Nat) : dacWord cfg val = cfg ||| BitVec.ofNat 16 (min val 4095) := by
  have hmask : BitVec.ofNat 16 (min val 4095) &&& dacMask = BitVec.ofNat 16 (min val 4095) := by
    rw [ofNat_clamped_eq_setWidth, dacMask, ← BitVec.setWidth_and, BitVec.and_allOnes]
  exact congrArg (cfg ||| ·) hmask

/-- A configuration word has its low twelve bits clear (R95). -/
theorem dacCfg_low (ch : Nat) : (Config.dacCfg ch).extractLsb' 0 12 = 0#12 := by
  ext k hk
  simp [Config.dacCfg, hk]

/-- The top four bits of a configuration word are the open parameter (R95). -/
theorem dacCfg_top (ch : Nat) :
    (Config.dacCfg ch).extractLsb' 12 4 = if ch = 0 then Config.dacTop0 else Config.dacTop1 := by
  unfold Config.dacCfg
  generalize (if ch = 0 then Config.dacTop0 else Config.dacTop1) = top
  refine BitVec.eq_of_getLsbD_eq fun k hk => ?_
  simp [show 12 + k < 16 by omega, hk]

/-- The low twelve bits of a DAC word are the clamped value. -/
theorem dacWord_low (ch val : Nat) :
    (dacWord (Config.dacCfg ch) val).extractLsb' 0 12 = BitVec.ofNat 12 (min val 4095) := by
  rw [dacWord_eq, BitVec.extractLsb'_or, dacCfg_low, BitVec.zero_or, ofNat_clamped_eq_setWidth,
    extractLsb'_low_setWidth]

/-- The top four bits of a DAC word are those of the configuration word. -/
theorem dacWord_top (cfg : Half) (val : Nat) :
    (dacWord cfg val).extractLsb' 12 4 = cfg.extractLsb' 12 4 := by
  rw [dacWord_eq, BitVec.extractLsb'_or, ofNat_clamped_eq_setWidth, extractLsb'_top_setWidth, BitVec.or_zero]

/-- The two configuration words differ in their top four bits, whatever the open parameters are (R95). -/
theorem dacTop0_ne_dacTop1 : Config.dacTop0 ≠ Config.dacTop1 := by
  intro h
  have hstep : BitVec.ofNat 4 (Config.dacStep.val + 1) = 0#4 := left_eq_add.mp h
  have hlt := Config.dacStep.isLt
  have hmod : (Config.dacStep.val + 1) % 2 ^ 4 = 0 := congrArg BitVec.toNat hstep
  omega

/-- The words of one value for the two channels differ: their top four bits do (R118). -/
theorem dacWord_zero_ne_dacWord_one (val : Nat) :
    dacWord (Config.dacCfg 0) val ≠ dacWord (Config.dacCfg 1) val := by
  intro h
  have htop := congrArg (BitVec.extractLsb' 12 4) h
  rw [dacWord_top, dacWord_top, dacCfg_top, dacCfg_top] at htop
  exact dacTop0_ne_dacTop1 htop

/-- The events a DAC write appends (R117). -/
theorem writeConverter_bus_inRange (s : State) (l : SelectLine) {ch : Nat} (val : Nat) (h : ch ≤ 1) :
    (s.writeConverter l ch val).bus = s.bus ++ dacEvents l (dacWord (Config.dacCfg ch) val) := by
  rw [writeConverter_inRange s l val h, State.respond_bus, dacFrame_bus]
  rfl

/-- Settles O27: the word is `dacWord`, whose two fields the lemmas above give; above 4095 the clamp is 4095. -/
theorem wrconvSendsTheClampedValue : Obligations.WrconvSendsTheClampedValue := by
  intro s sel ch val h
  refine ⟨_, _, rfl, writeConverter_bus_inRange s sel val h, dacWord_eq _ val, dacWord_low ch val, dacWord_top _ val,
    fun hval => ?_⟩
  rw [dacWord_low, Nat.min_eq_right (Nat.le_of_lt hval)]

/-- Settles O28: the low bits are clear, and the top four bits of the two words differ. -/
theorem theTwoDacChannelsSendDifferentWords : Obligations.TheTwoDacChannelsSendDifferentWords := by
  refine ⟨fun ch _ => dacCfg_low ch, fun h => ?_, fun s sel val => ?_⟩
  · exact dacWord_zero_ne_dacWord_one 0 (congrArg (dacWord · 0) h)
  · exact ⟨_, _, _, _, rfl, writeConverter_bus_inRange s sel val (by omega),
      rfl, writeConverter_bus_inRange s sel val (by omega), dacWord_zero_ne_dacWord_one val⟩

/-- WRCV on a channel of DAC A or DAC B is a write of that converter (R135). -/
theorem exec_wrcv_converter (s : State) {ch : Nat} (val : Nat) (h : ch ≤ 3) :
    exec (.wrcv ch val) s =
      .next (s.writeConverter (if ch ≤ 1 then .dacA else .dacB) (if ch ≤ 1 then ch else ch - 2) val) := by
  have hroute : cvRoute ch = some (if ch ≤ 1 then .dacA else .dacB, if ch ≤ 1 then ch else ch - 2) := by
    split_ifs with h1
    · exact cvRoute_dacA h1
    · exact cvRoute_dacB (Nat.lt_of_not_le h1) h
  rw [exec, execWrcv, State.writeCv, hroute]

/-- Settles O36: the routed write has a device-local channel in range, and its word is the clamped one. -/
theorem wrcvWritesTheRoutedConverter : Obligations.WrcvWritesTheRoutedConverter := by
  intro s ch val h
  have hlocal : (if ch ≤ 1 then ch else ch - 2) ≤ 1 := by split_ifs <;> omega
  refine ⟨_, exec_wrcv_converter s val h, ?_, ?_⟩
  · rw [writeConverter_inRange s _ val hlocal]
    exact respond_responded _ _
  · rw [writeConverter_bus_inRange s _ val hlocal, dacWord_eq]

end Sys2Proof.Machine
end

section
/-! Proofs: the Bus Transaction Framer (40_bus_framer.md). RDCONV and WRCONV in range and out of range, the levels of
the lines over their transactions, and the pairing of commands with devices. -/

namespace Sys2Proof.Machine

/-! ### Channels out of range -/

/-- Settles O24: out of range the body of RDCONV is the response alone. -/
theorem rdconvFailsOnABadChannel : Obligations.RdconvFailsOnABadChannel := fun s sel _ h =>
  ⟨_, congrArg Host.Outcome.next (readConverter_outOfRange s sel h), respond_answeredOnly s _⟩

/-- Settles O29: out of range the body of WRCONV is the response alone. -/
theorem wrconvIgnoresABadChannel : Obligations.WrconvIgnoresABadChannel := fun s sel _ val h =>
  ⟨_, congrArg Host.Outcome.next (writeConverter_outOfRange s sel val h), respond_answeredOnly s _⟩

/-! ### The lines over a transaction and its response -/

/-- What a response adds to the pin-level view since an earlier state is one entry. -/
theorem waveSince_respond {s t : State} {ps : List Pins} (v : Config.Response) (h : t.wave = s.wave ++ ps) :
    waveSince s (t.respond v) = ps ++ [(t.respond v).pins] :=
  waveSince_eq_of_append (by rw [State.respond_wave, h, List.append_assoc, State.respond_pins])

/-- A transaction moves no select line but its own (R59, R64). -/
theorem level_of_mem_txnWave {p q : Pins} {k l : SelectLine} {bs : List Level} {m : Level} (hb : bs ≠ []) (hk : k ≠ l)
    (h : q ∈ txnWave p l bs m) : q.csN.level k = p.csN.level k := by
  obtain rfl | ⟨a, b, rfl⟩ | ⟨b, c, rfl⟩ := mem_txnWave hb h
  · rfl
  · exact SelectLines.level_put_other p.csN false hk
  · exact SelectLines.level_put_other p.csN true hk

/-- From the start of an ADC read to its response no select line moves but its own. -/
theorem level_of_mem_waveSince_adcFrame_respond {s : State} {k l : SelectLine} {ch : BitVec 3} {v : Config.Response}
    {p : Pins} (hk : k ≠ l) (hp : p ∈ waveSince s ((s.adcFrame l ch).2.respond v)) :
    p.csN.level k = s.pins.csN.level k := by
  have hwave : (s.adcFrame l ch).2.wave =
      s.wave ++ txnWave s.pins l (adcFrameBits ch) (Config.idleMosi (s.draws + 24)) := by rw [adcFrame_eq]
  rw [waveSince_respond v hwave, List.mem_append, List.mem_singleton] at hp
  obtain hp | rfl := hp
  · exact level_of_mem_txnWave (adcFrameBits_ne_nil ch) hk hp
  · rw [State.respond_pins, adcFrame_eq]
    exact SelectLines.level_put_other s.pins.csN true hk

/-- A DAC write that starts with the clock low clocks out the word's bits; the response moves no clock (R57, R61). -/
theorem clockedOut_dacFrame_respond (s : State) (l : SelectLine) (w : Half) (v : Config.Response)
    (h : s.pins.sck = false) :
    clockedOut false (waveSince s ((s.dacFrame l w).respond v)) = bitsMsb w := by
  have hwave : (s.dacFrame l w).wave = s.wave ++ txnWave s.pins l (bitsMsb w) (Config.idleMosi s.draws) := by
    rw [dacFrame_eq]
  rw [waveSince_respond v hwave, clockedOut_txnWave _ _ _ _ _ (bitsMsb_ne_nil w) h]
  simp [clockedOut, dacFrame_eq]

/-- A DAC write uses nothing received and reads no other input (R61, R117). -/
theorem dacFrame_inputs (s : State) (l : SelectLine) (w : Half) : (s.dacFrame l w).inputs = s.inputs := by
  rw [dacFrame_eq]

/-! ### Channels in range -/

/-- Settles O21: RDCONV appends the events of an ADC read, and the wave of its transaction and response keeps the other
select lines. -/
theorem rdconvSendsTheSevenEvents : Obligations.RdconvSendsTheSevenEvents := by
  intro s sel ch h
  refine ⟨_, rfl, readConverter_bus_inRange s sel h, fun k hk p hp => ?_⟩
  rw [readConverter_inRange s sel h] at hp
  exact level_of_mem_waveSince_adcFrame_respond hk hp

/-- WRCONV on a channel in range, from its start to its response (R115). -/
theorem exec_wrconv_inRange (s : State) (sel : SelectLine) {ch : Nat} (val : Nat) (h : ch ≤ 1) :
    exec (.wrconv sel ch val) s = .next ((s.dacFrame sel (dacWord (Config.dacCfg ch) val)).respond 0#16) :=
  congrArg Host.Outcome.next (writeConverter_inRange s sel val h)

/-- Settles O26: WRCONV is one DAC transaction and the response; its events and its pulses carry the same word. -/
theorem wrconvSendsTheFiveEvents : Obligations.WrconvSendsTheFiveEvents := by
  intro s sel ch val h
  refine ⟨_, dacWord (Config.dacCfg ch) val, exec_wrconv_inRange s sel val h, respond_responded _ _, ?_, ?_, ?_⟩
  · rw [State.respond_bus, dacFrame_bus]
    rfl
  · exact fun hsck => (clockedOut_dacFrame_respond s sel _ _ hsck).trans (bitsMsb_eq _)
  · rw [State.respond_inputs, dacFrame_inputs]

/-! ### Commands and the devices they reach -/

/-- From `s` to `t` the bus history grew by whole transactions, each with a device of its own kind. -/
def State.appendsPaired (s t : State) : Prop :=
  ∃ txns, t.bus = s.bus ++ List.flatMap Txn.events txns ∧ ∀ x ∈ txns, x.paired = true

theorem appendsPaired_of_bus_eq {s t : State} (h : t.bus = s.bus) : s.appendsPaired t :=
  ⟨[], by rw [h, List.flatMap_nil, List.append_nil], List.forall_mem_nil _⟩

theorem appendsPaired_of_txn {s t : State} {x : Txn} (h : t.bus = s.bus ++ x.events) (hx : x.paired = true) :
    s.appendsPaired t :=
  ⟨[x], by rw [h, List.flatMap_singleton], List.forall_mem_singleton.mpr hx⟩

/-- A read under the select line of an ADC appends ADC frames of an ADC only. -/
theorem readConverter_appendsPaired (s : State) {l : SelectLine} (ch : Nat) (hl : l = .adcA ∨ l = .adcB) :
    s.appendsPaired (s.readConverter l ch) := by
  obtain h | h := Nat.lt_or_ge 7 ch
  · exact appendsPaired_of_bus_eq (readConverter_bus_outOfRange s l h)
  · rw [readConverter_inRange s l h]
    exact appendsPaired_of_txn ((State.respond_bus _ _).trans (adcFrame_bus s l _)) (by simpa [Txn.paired] using hl)

/-- A write under the select line of a DAC appends DAC words of a DAC only. -/
theorem writeConverter_appendsPaired (s : State) {l : SelectLine} (ch val : Nat) (hl : l = .dacA ∨ l = .dacB) :
    s.appendsPaired (s.writeConverter l ch val) := by
  obtain h | h := Nat.lt_or_ge 1 ch
  · exact appendsPaired_of_bus_eq (writeConverter_bus_outOfRange s l val h)
  · rw [writeConverter_inRange s l val h]
    exact appendsPaired_of_txn ((State.respond_bus _ _).trans (dacFrame_bus s l _)) (by simpa [Txn.paired] using hl)

/-- The router reads analog channels from an ADC only (R130). -/
theorem analogRoute_line {ch dch : Nat} {l : SelectLine} (h : analogRoute ch = some (.converter l dch)) :
    l = .adcA ∨ l = .adcB := by
  unfold analogRoute at h
  split_ifs at h <;> cases h
  · exact .inl rfl
  · exact .inr rfl

/-- The router writes CV channels to a DAC only (R135). -/
theorem cvRoute_line {ch dch : Nat} {l : SelectLine} (h : cvRoute ch = some (l, dch)) : l = .dacA ∨ l = .dacB := by
  unfold cvRoute at h
  split_ifs at h <;> cases h
  · exact .inl rfl
  · exact .inr rfl

theorem readAnalog_appendsPaired (s : State) (ch : Nat) : s.appendsPaired (s.readAnalog ch) := by
  unfold State.readAnalog
  split
  · next l dch hroute => exact readConverter_appendsPaired s dch (analogRoute_line hroute)
  · next i _ => exact appendsPaired_of_bus_eq (s.tookNative_bus i)
  · exact appendsPaired_of_bus_eq rfl

theorem writeCv_appendsPaired (s : State) (ch val : Nat) : s.appendsPaired (s.writeCv ch val) := by
  unfold State.writeCv
  split
  · next l dch hroute => exact writeConverter_appendsPaired s dch val (cvRoute_line hroute)
  · exact appendsPaired_of_bus_eq rfl

/-- A command that keeps the host's duty of R232 reaches devices of the right kind only. -/
theorem exec_appendsPaired (s : State) {i : Instr} (h : i.paired = true) :
    ∃ t, exec i s = .next t ∧ s.appendsPaired t := by
  cases i with
  | rdconv sel ch => exact ⟨_, rfl, readConverter_appendsPaired s ch (by simpa [Instr.paired] using h)⟩
  | wrconv sel ch val => exact ⟨_, rfl, writeConverter_appendsPaired s ch val (by simpa [Instr.paired] using h)⟩
  | rdanalog ch => exact ⟨_, rfl, readAnalog_appendsPaired s ch⟩
  | wrcv ch val => exact ⟨_, rfl, writeCv_appendsPaired s ch val⟩
  | encpoll => exact ⟨_, rfl, appendsPaired_of_bus_eq (encPoll_bus s)⟩
  | btnpoll => exact ⟨_, rfl, appendsPaired_of_bus_eq (btnPoll_bus s)⟩

/-- Settles O38: a framer command names its device's kind by R232, and the router's routes do by themselves. -/
theorem pairedCommandsReachTheRightKindOfDevice : Obligations.PairedCommandsReachTheRightKindOfDevice := by
  intro s i h
  obtain ⟨t, ht, txns, hbus, hpaired⟩ := exec_appendsPaired s h
  exact ⟨t, txns, ht, hbus, hpaired⟩

end Sys2Proof.Machine
end

section
/-! Proofs: the Channel Router (41_channel_router.md). The native analog inputs, and the channels of RDANALOG and WRCV
that have no route. -/

namespace Sys2Proof.Machine

/-! ### Native analog inputs -/

/-- The route of a native channel is its native input (R36, R130). -/
theorem analogRoute_native {ch : Nat} {i : NativeIn} (h : (ch = 16 ∧ i = .ain0) ∨ (ch = 17 ∧ i = .ain1)) :
    analogRoute ch = some (.native i) := by
  obtain ⟨rfl, rfl⟩ | ⟨rfl, rfl⟩ := h
  · exact analogRoute_ain0
  · exact analogRoute_ain1

/-- RDANALOG on a native channel is one read of that input and the response with what it gave (R130, R132). -/
theorem exec_rdanalog_native (s : State) {ch : Nat} {i : NativeIn} (h : analogRoute ch = some (.native i)) :
    exec (.rdanalog ch) s = .next ((s.tookNative i).respond (readResponse (s.nativeAin i))) := by
  rw [exec, execRdanalog, State.readAnalog, h]

/-- Settles O34: the read of a native input takes the head of its list and counts one draw, and the response drives the
host port alone. -/
theorem rdanalogReadsTheNativeInputs : Obligations.RdanalogReadsTheNativeInputs := by
  intro s ch i h
  refine ⟨_, exec_rdanalog_native s (analogRoute_native h), respond_responded _ _, readResponse_le _,
    s.tookNative_bus i, ?wave, ?pins, s.tookNative_enc i, s.tookNative_btn i, s.tookNative_host i,
    s.tookNative_setupDone i, s.tookNative_params i, s.tookNative_draws i, ?native0, ?native1⟩
  case wave => rw [State.respond_wave, State.respond_pins, State.tookNative_wave]
  case pins => rw [State.respond_pins, State.tookNative_pins]
  case native0 => rintro rfl; exact s.tookNative_ain0_inputs
  case native1 => rintro rfl; exact s.tookNative_ain1_inputs

/-! ### Channels without a route -/

/-- RDANALOG on a channel without a route is the response `INVALID` alone (R131). -/
theorem exec_rdanalog_outOfRange (s : State) {ch : Nat} (h : 18 ≤ ch) :
    exec (.rdanalog ch) s = .next (s.respond Config.invalid) := by
  rw [exec, execRdanalog, State.readAnalog, analogRoute_none h]

/-- Settles O35: a channel from 18 on has no route, so the body is the response alone; `analogRoute_local` bounds the
routes there are. -/
theorem rdanalogFailsOnABadChannel : Obligations.RdanalogFailsOnABadChannel :=
  ⟨fun s _ h => ⟨_, exec_rdanalog_outOfRange s h, respond_answeredOnly s _⟩, fun _ _ _ => analogRoute_local⟩

/-- WRCV on a channel without a route is the response 0 alone (R136). -/
theorem exec_wrcv_outOfRange (s : State) {ch : Nat} (val : Nat) (h : 4 ≤ ch) :
    exec (.wrcv ch val) s = .next (s.respond 0#16) := by
  rw [exec, execWrcv, State.writeCv, cvRoute_none h]

/-- Settles O37: a channel from 4 on has no route, so the body is the response alone; `cvRoute_local` bounds the routes
there are. -/
theorem wrcvIgnoresABadChannel : Obligations.WrcvIgnoresABadChannel :=
  ⟨fun s _ val h => ⟨_, exec_wrcv_outOfRange s val h, respond_answeredOnly s _⟩, fun _ _ _ => cvRoute_local⟩

end Sys2Proof.Machine
end

section
/-! Proofs: the Quadrature Decoder (42_quadrature_decoder.md). The stored time the gate measures from, the rows of the
transition table, and what ENCPOLL leaves with the gate shut and with the gate open. -/

namespace Sys2Proof.Machine

theorem exec_encpoll (s : State) : exec .encpoll s = .next s.encPoll := rfl

/-! ### The time the gate measures from -/

/-- Where the clock-wrap rule fires, the gate measures from 0 (R151). -/
theorem encBase_of_wrap {s : State} (h : s.timeNow < s.enc.lastPoll) : s.encBase = 0#32 := if_pos h

/-- Where the time did not step back, the gate measures from the stored time (R151). -/
theorem encBase_of_le {s : State} (h : s.enc.lastPoll ≤ s.timeNow) : s.encBase = s.enc.lastPoll :=
  if_neg (BitVec.not_lt.mpr h)

/-! ### The transition table -/

/-- No edge or a rising edge: the stored sample was low (R155). -/
theorem tickOf_prevA_low (a b : Level) : tickOf false a b = tickNone := rfl

/-- No falling edge: line A reads high (R155). -/
theorem tickOf_a_high (b : Level) : tickOf true true b = tickNone := rfl

/-- A falling edge of line A ticks in the direction that line B gives (R155). -/
theorem tickOf_falling (b : Level) : tickOf true false b = if b = true then tickDown else tickUp := rfl

/-! ### ENCPOLL -/

/-- ENCPOLL answers with the tick it leaves, sign-extended (R156). -/
theorem encPoll_responded (s : State) : s.encPoll.responded (tickResponse s.encPoll.enc.tick) :=
  respond_responded _ _

/-- The tick that ENCPOLL leaves fixes its response (R156). -/
theorem encPoll_tick_and_responded {s : State} {tick : BitVec 2} (h : s.encPoll.enc.tick = tick) :
    s.encPoll.enc.tick = tick ∧ s.encPoll.responded (tickResponse tick) :=
  ⟨h, h ▸ encPoll_responded s⟩

/-- The Encoder State after an ENCPOLL whose gate fails (R153). -/
theorem encPoll_enc_gateShut {s : State} (h : s.timeNow - s.encBase < 3#32) :
    s.encPoll.enc = { prevA := s.enc.prevA, lastPoll := s.encBase, tick := tickNone } := by
  rw [encPoll_gateShut s h, State.respond_enc, State.setEnc_enc]

/-- The Encoder State after an ENCPOLL whose gate passes (R154, R155). -/
theorem encPoll_enc_gateOpen {s : State} (h : 3#32 ≤ s.timeNow - s.encBase) :
    s.encPoll.enc =
      { prevA := s.tookTime.pinRead .encA
        lastPoll := s.timeNow
        tick := tickOf s.enc.prevA (s.tookTime.pinRead .encA) ((s.tookTime.tookPin .encA).pinRead .encB) } := by
  rw [encPoll_gateOpen s h, State.respond_enc, State.setEnc_enc]

/-- The stored time after an ENCPOLL in which the clock-wrap rule fired (R151, R154). -/
theorem encPoll_lastPoll_of_wrap {s : State} (h : s.timeNow < s.enc.lastPoll) :
    s.encPoll.enc.lastPoll = if s.timeNow < 3#32 then 0#32 else s.timeNow := by
  have helapsed : s.timeNow - s.encBase = s.timeNow := by rw [encBase_of_wrap h, BitVec.sub_zero]
  split_ifs with hgate
  · rw [encPoll_enc_gateShut (helapsed.symm ▸ hgate), encBase_of_wrap h]
  · rw [encPoll_enc_gateOpen (helapsed.symm ▸ BitVec.not_lt.mp hgate)]

/-- After a wrap the stored time is no later than the time read, so the next poll does not wrap again (R151). -/
theorem encPoll_lastPoll_le_of_wrap {s : State} (h : s.timeNow < s.enc.lastPoll) :
    s.encPoll.enc.lastPoll ≤ s.timeNow := by
  rw [encPoll_lastPoll_of_wrap h]
  split_ifs
  · exact Nat.zero_le _
  · exact BitVec.le_refl _

/-- Only an ENCPOLL whose gate passes gives a tick (R153). -/
theorem gateOpen_of_tick_ne_none {s : State} (h : s.encPoll.enc.tick ≠ tickNone) :
    3#32 ≤ s.timeNow - s.encBase := by
  by_contra hgate
  exact h (by rw [encPoll_enc_gateShut (BitVec.not_le.mp hgate)])

theorem encPoll_pollFrame (s : State) : s.pollFrame s.encPoll := by
  by_cases hgate : 3#32 ≤ s.timeNow - s.encBase
  · simp [State.pollFrame, encPoll_gateOpen s hgate]
  · simp [State.pollFrame, encPoll_gateShut s (BitVec.not_le.mp hgate)]

/-- ENCPOLL leaves the button alone: neither its state nor its line (R199). -/
theorem encPoll_btn_unchanged (s : State) :
    s.encPoll.btn = s.btn ∧ s.encPoll.inputs.btnIn = s.inputs.btnIn := by
  by_cases hgate : 3#32 ≤ s.timeNow - s.encBase
  · simp [encPoll_gateOpen s hgate]
  · simp [encPoll_gateShut s (BitVec.not_le.mp hgate)]

/-- Settles O40: the frame holds in both cases of the gate, and the response is that of the tick. -/
theorem encpollChangesOnlyItsUnit : Obligations.EncpollChangesOnlyItsUnit := by
  intro s
  obtain ⟨hbtn, hbtnIn⟩ := encPoll_btn_unchanged s
  exact ⟨_, exec_encpoll s, encPoll_pollFrame s, hbtn, hbtnIn, encPoll_responded s⟩

/-- Settles O41: after a wrap the gate measures from 0, so it asks whether the time itself is at least 3. -/
theorem encpollRestartsFromZeroOnAWrap : Obligations.EncpollRestartsFromZeroOnAWrap := by
  intro s hwrap
  have hlast := encPoll_lastPoll_of_wrap hwrap
  refine ⟨_, exec_encpoll s, encPoll_lastPoll_le_of_wrap hwrap, fun hlow => ⟨?zero, ?kept⟩, fun hhigh => ?now⟩
  case zero => rw [hlast, if_pos hlow]
  case kept =>
    have hgate : s.timeNow - s.encBase < 3#32 := by rwa [encBase_of_wrap hwrap, BitVec.sub_zero]
    rw [encPoll_enc_gateShut hgate]
  case now => rw [hlast, if_neg (BitVec.not_lt.mpr hhigh)]

/-- Settles O42: with the gate shut ENCPOLL reads the time, stores what `encPoll_gateShut` says, and answers 0. -/
theorem encpollWithTheGateShutAnswersZero : Obligations.EncpollWithTheGateShutAnswersZero := by
  intro s hgate
  exact ⟨_, congrArg Host.Outcome.next (encPoll_gateShut s hgate), respond_responded _ _, rfl, rfl, rfl, rfl⟩

/-- What an ENCPOLL whose gate passes takes from the environment: the time and one level of each line (R154). -/
theorem encPoll_reads_gateOpen {s : State} (h : 3#32 ≤ s.timeNow - s.encBase) :
    s.encPoll.inputs =
        { s.inputs with
          time := s.inputs.time.tail, encA := s.inputs.encA.tail, encB := s.inputs.encB.tail } ∧
      s.encPoll.draws = s.draws + 3 := by
  simp [encPoll_gateOpen s h]

/-- Settles O43: each row of the table is a row of `tickOf`, and the tick fixes the response. -/
theorem encpollWithTheGateOpenFollowsTheTable : Obligations.EncpollWithTheGateOpenFollowsTheTable := by
  rintro s a b hgate rfl rfl
  have henc := encPoll_enc_gateOpen hgate
  obtain ⟨hinputs, hdraws⟩ := encPoll_reads_gateOpen hgate
  refine ⟨_, exec_encpoll s, by rw [henc], by rw [henc], by rw [hinputs], by rw [hinputs], hdraws, ?noEdge, ?up, ?down,
    ?prevLow⟩
  case noEdge =>
    intro hprev ha
    exact encPoll_tick_and_responded (tick := tickNone) (by rw [henc, hprev, ha, tickOf_a_high])
  case up =>
    intro hprev ha hb
    exact encPoll_tick_and_responded (tick := tickUp) (by rw [henc, hprev, ha, hb]; exact tickOf_falling false)
  case down =>
    intro hprev ha hb
    exact encPoll_tick_and_responded (tick := tickDown) (by rw [henc, hprev, ha, hb]; exact tickOf_falling true)
  case prevLow =>
    intro hprev
    exact encPoll_tick_and_responded (tick := tickNone) (by rw [henc, hprev, tickOf_prevA_low])

/-! ### What ENCPOLL depends on -/

/-- What a line gives depends on the environment alone (R32). -/
theorem pinRead_congr {s u : State} (hi : s.inputs = u.inputs) (hd : s.draws = u.draws) (p : InPin) :
    s.pinRead p = u.pinRead p := by
  cases p <;> simp [State.pinRead, hi, hd]

/-- What `TimeNow()` gives depends on the environment alone (R32). -/
theorem timeNow_congr {s u : State} (hi : s.inputs = u.inputs) (hd : s.draws = u.draws) : s.timeNow = u.timeNow := by
  rw [State.timeNow, State.timeNow, hi, hd]

/-- Settles O44: both polls read the same time, so they take the same side of the gate, and there the same levels. -/
theorem encpollDependsOnlyOnItsSampleAndWhatItReads : Obligations.EncpollDependsOnlyOnItsSampleAndWhatItReads := by
  intro s u hprev hlast hi hd
  have htime : s.timeNow = u.timeNow := timeNow_congr hi hd
  have hbase : s.encBase = u.encBase := by rw [State.encBase, State.encBase, htime, hlast]
  refine ⟨_, _, exec_encpoll s, exec_encpoll u, ?_⟩
  by_cases hgate : 3#32 ≤ s.timeNow - s.encBase
  · have ha : s.tookTime.pinRead .encA = u.tookTime.pinRead .encA :=
      pinRead_congr (by simp [hi]) (by simp [hd]) _
    have hb : (s.tookTime.tookPin .encA).pinRead .encB = (u.tookTime.tookPin .encA).pinRead .encB :=
      pinRead_congr (by simp [hi]) (by simp [hd]) _
    rw [encPoll_gateOpen s hgate, encPoll_gateOpen u (by rwa [← htime, ← hbase])]
    simp [hprev, htime, ha, hb, hi, hd]
  · have hshut := BitVec.not_le.mp hgate
    rw [encPoll_gateShut s hshut, encPoll_gateShut u (by rwa [← htime, ← hbase])]
    simp [hprev, hbase, hi, hd]

/-! ### Two polls -/

/-- Settles O45: the poll that gave a tick stored its time, and from there the gate of the later poll is shut. -/
theorem atMostOneTickInThreeTimeUnits : Obligations.AtMostOneTickInThreeTimeUnits := by
  intro s t u v ht htick hlast hle helapsed hv
  cases ht
  cases hv
  have hstored : u.enc.lastPoll = s.timeNow := by
    rw [hlast, encPoll_enc_gateOpen (gateOpen_of_tick_ne_none htick)]
  have hbase : u.encBase = s.timeNow := by rw [encBase_of_le (hstored.symm ▸ hle), hstored]
  have hgate : u.timeNow - u.encBase < 3#32 := by rwa [hbase]
  obtain ⟨hnone, hrsp, -, -⟩ :=
    encPoll_tick_and_responded (s := u) (tick := tickNone) (by rw [encPoll_enc_gateShut hgate])
  exact ⟨hnone, hrsp⟩

/-- Settles O46: the wrapping poll leaves a stored time no later than its own, so the gate of the later poll measures
from there and passes. -/
theorem decoderDoesNotStallAfterAWrap : Obligations.DecoderDoesNotStallAfterAWrap := by
  intro s t u hwrap ht hu hle helapsed
  cases ht
  have hlast : u.enc.lastPoll = if s.timeNow < 3#32 then 0#32 else s.timeNow := by
    rw [hu, encPoll_lastPoll_of_wrap hwrap]
  have hnoWrap : u.enc.lastPoll ≤ u.timeNow := hu ▸ BitVec.le_trans (encPoll_lastPoll_le_of_wrap hwrap) hle
  have hgate : 3#32 ≤ u.timeNow - u.encBase := by rwa [encBase_of_le hnoWrap, hlast]
  have henc := encPoll_enc_gateOpen hgate
  refine ⟨_, exec_encpoll u, by rw [henc], by rw [henc], fun hprev ha => ?_⟩
  rw [henc, hu, hprev, ha]
  exact tickOf_falling _

end Sys2Proof.Machine
end

section
/-! Proofs: the Button Classifier (43_button_classifier.md). The rows of the transition table, what BTNPOLL leaves with
the gate shut and with the gate open, and the one way it reports a result. -/

namespace Sys2Proof.Machine

theorem exec_btnpoll (s : State) : exec .btnpoll s = .next s.btnPoll := rfl

/-! ### The classification of a duration -/

theorem classify_of_lt {d : Time} (h : d < 500#32) : classify d = resultShort := if_pos h

theorem classify_of_ge {d : Time} (h : 500#32 ≤ d) : classify d = resultLong := if_neg (Nat.not_lt.mpr h)

/-! ### The transition table -/

/-- No edge: the level is as it was (R176). -/
theorem sampled_noEdge {b : BtnState} {c : Level} (now : Time) (h : b.prev = c) :
    b.sampled c now = { b with prev := c, lastPoll := now } := by
  subst h
  simp [BtnState.sampled, pressEdge, releaseEdge]

/-- A press edge: the line goes from high to low (R173). -/
theorem sampled_press {b : BtnState} (now : Time) (h : b.prev = true) :
    b.sampled false now = { b with prev := false, lastPoll := now, pressTime := now } := by
  simp [BtnState.sampled, pressEdge, h]

/-- A release edge: the line goes from low to high (R174, R175). -/
theorem sampled_release {b : BtnState} (now : Time) (h : b.prev = false) :
    b.sampled true now =
      { b with prev := true, lastPoll := now, releaseTime := now, result := classify (now - b.pressTime) } := by
  simp [BtnState.sampled, pressEdge, releaseEdge, h]

/-! Every accepted sample is stored with its time, edge or no edge (R176). -/

@[simp] theorem sampled_prev (b : BtnState) (c : Level) (now : Time) : (b.sampled c now).prev = c := by
  unfold BtnState.sampled
  split_ifs <;> rfl

@[simp] theorem sampled_lastPoll (b : BtnState) (c : Level) (now : Time) : (b.sampled c now).lastPoll = now := by
  unfold BtnState.sampled
  split_ifs <;> rfl

/-- Only a release edge writes the result (R174). -/
theorem sampled_result_of_not_release {b : BtnState} {c : Level} (now : Time) (h : ¬(b.prev = false ∧ c = true)) :
    (b.sampled c now).result = b.result := by
  by_cases hsame : b.prev = c
  · rw [sampled_noEdge now hsame]
  · cases c with
    | true => exact absurd ⟨by simpa using hsame, rfl⟩ h
    | false => rw [sampled_press now (by simpa using hsame)]

/-! ### BTNPOLL -/

/-- The Button State with which BTNPOLL enters the gate: the result is cleared (R171). -/
def BtnState.cleared (b : BtnState) : BtnState := { b with result := resultNone }

@[simp] theorem BtnState.cleared_prev (b : BtnState) : b.cleared.prev = b.prev := rfl
@[simp] theorem BtnState.cleared_lastPoll (b : BtnState) : b.cleared.lastPoll = b.lastPoll := rfl
@[simp] theorem BtnState.cleared_pressTime (b : BtnState) : b.cleared.pressTime = b.pressTime := rfl
@[simp] theorem BtnState.cleared_releaseTime (b : BtnState) : b.cleared.releaseTime = b.releaseTime := rfl
@[simp] theorem BtnState.cleared_result (b : BtnState) : b.cleared.result = resultNone := rfl

/-- BTNPOLL answers with the result it leaves, zero-extended (R177). -/
theorem btnPoll_responded (s : State) : s.btnPoll.responded (resultResponse s.btnPoll.btn.result) :=
  respond_responded _ _

/-- The result that BTNPOLL leaves fixes its response (R177). -/
theorem btnPoll_result_and_responded {s : State} {result : BitVec 2} (h : s.btnPoll.btn.result = result) :
    s.btnPoll.btn.result = result ∧ s.btnPoll.responded (resultResponse result) :=
  ⟨h, h ▸ btnPoll_responded s⟩

/-- The Button State after a BTNPOLL whose gate fails (R172). -/
theorem btnPoll_btn_gateShut {s : State} (h : s.timeNow - s.btn.lastPoll < 50#32) :
    s.btnPoll.btn = s.btn.cleared := by
  rw [btnPoll_gateShut s h, State.respond_btn, State.setBtn_btn, BtnState.cleared]

/-- The Button State after a BTNPOLL whose gate passes (R173 to R176). -/
theorem btnPoll_btn_gateOpen {s : State} (h : 50#32 ≤ s.timeNow - s.btn.lastPoll) :
    s.btnPoll.btn = s.btn.cleared.sampled (s.tookTime.pinRead .btnIn) s.timeNow := by
  rw [btnPoll_gateOpen s h, State.respond_btn, State.setBtn_btn, BtnState.cleared]

/-- What a BTNPOLL whose gate passes takes from the environment: the time and one level of the line (R170, R172). -/
theorem btnPoll_reads_gateOpen {s : State} (h : 50#32 ≤ s.timeNow - s.btn.lastPoll) :
    s.btnPoll.inputs = { s.inputs with time := s.inputs.time.tail, btnIn := s.inputs.btnIn.tail } ∧
      s.btnPoll.draws = s.draws + 2 := by
  simp [btnPoll_gateOpen s h]

theorem btnPoll_pollFrame (s : State) : s.pollFrame s.btnPoll := by
  by_cases hgate : 50#32 ≤ s.timeNow - s.btn.lastPoll
  · simp [State.pollFrame, btnPoll_gateOpen s hgate]
  · simp [State.pollFrame, btnPoll_gateShut s (BitVec.not_le.mp hgate)]

/-- BTNPOLL leaves the encoder alone: neither its state nor its lines (R199). -/
theorem btnPoll_enc_unchanged (s : State) :
    s.btnPoll.enc = s.enc ∧ s.btnPoll.inputs.encA = s.inputs.encA ∧ s.btnPoll.inputs.encB = s.inputs.encB := by
  by_cases hgate : 50#32 ≤ s.timeNow - s.btn.lastPoll
  · simp [btnPoll_gateOpen s hgate]
  · simp [btnPoll_gateShut s (BitVec.not_le.mp hgate)]

/-- Settles O47: the frame holds in both cases of the gate, and the response is that of the result. -/
theorem btnpollChangesOnlyItsUnit : Obligations.BtnpollChangesOnlyItsUnit := by
  intro s
  obtain ⟨henc, hencA, hencB⟩ := btnPoll_enc_unchanged s
  exact ⟨_, exec_btnpoll s, btnPoll_pollFrame s, henc, hencA, hencB, btnPoll_responded s⟩

/-- Settles O48: with the gate shut BTNPOLL reads the time, clears the result as `btnPoll_gateShut` says, and answers
none. -/
theorem btnpollWithTheGateShutAnswersNone : Obligations.BtnpollWithTheGateShutAnswersNone := by
  intro s hgate
  exact ⟨_, congrArg Host.Outcome.next (btnPoll_gateShut s hgate), respond_responded _ _, rfl, rfl, rfl⟩

/-- Settles O49: each row of the table is a row of `BtnState.sampled`, and the result fixes the response. -/
theorem btnpollWithTheGateOpenFollowsTheTable : Obligations.BtnpollWithTheGateOpenFollowsTheTable := by
  intro s c hgate hread
  have hbtn : s.btnPoll.btn = s.btn.cleared.sampled c s.timeNow := hread ▸ btnPoll_btn_gateOpen hgate
  obtain ⟨hinputs, hdraws⟩ := btnPoll_reads_gateOpen hgate
  refine ⟨_, exec_btnpoll s, by rw [hbtn, sampled_prev], by rw [hbtn, sampled_lastPoll], by rw [hinputs], hdraws,
    ?noEdge, ?press, ?release⟩
  case noEdge =>
    intro hprev
    rw [sampled_noEdge (b := s.btn.cleared) _ hprev] at hbtn
    exact ⟨by simp [hbtn], by simp [hbtn], btnPoll_result_and_responded (result := resultNone) (by simp [hbtn])⟩
  case press =>
    rintro hprev rfl
    rw [sampled_press (b := s.btn.cleared) _ hprev] at hbtn
    exact ⟨by simp [hbtn], by simp [hbtn], btnPoll_result_and_responded (result := resultNone) (by simp [hbtn])⟩
  case release =>
    rintro hprev rfl
    rw [sampled_release (b := s.btn.cleared) _ hprev] at hbtn
    have hresult : s.btnPoll.btn.result = classify (s.timeNow - s.btn.pressTime) := by simp [hbtn]
    exact ⟨by simp [hbtn], by simp [hbtn],
      fun hshort => btnPoll_result_and_responded (hresult.trans (classify_of_lt hshort)),
      fun hlong => btnPoll_result_and_responded (hresult.trans (classify_of_ge hlong))⟩

/-! ### The one way to a result -/

/-- Only a BTNPOLL whose gate passes gives a result (R172). -/
theorem btn_gateOpen_of_result_ne_none {s : State} (h : s.btnPoll.btn.result ≠ resultNone) :
    50#32 ≤ s.timeNow - s.btn.lastPoll := by
  by_contra hgate
  exact h (by rw [btnPoll_btn_gateShut (BitVec.not_le.mp hgate), BtnState.cleared_result])

/-- Only a BTNPOLL that reads a release edge gives a result, and it stores the high level (R174). -/
theorem release_of_result_ne_none {s : State} (h : s.btnPoll.btn.result ≠ resultNone) :
    s.btn.prev = false ∧ s.tookTime.pinRead .btnIn = true ∧ s.btnPoll.btn.prev = true := by
  have hbtn := btnPoll_btn_gateOpen (btn_gateOpen_of_result_ne_none h)
  have hedge : s.btn.cleared.prev = false ∧ s.tookTime.pinRead .btnIn = true := by
    by_contra hno
    exact h (by rw [hbtn, sampled_result_of_not_release _ hno, BtnState.cleared_result])
  obtain ⟨hlow, hhigh⟩ := hedge
  exact ⟨hlow, hhigh, by rw [hbtn, sampled_prev, hhigh]⟩

/-- Settles O52: a result is that of a release edge. -/
theorem onlyAReleaseReportsAResult : Obligations.OnlyAReleaseReportsAResult := by
  intro s t ht hresult
  cases ht
  exact release_of_result_ne_none hresult

/-- Settles O50: the poll that reported stored a high level, and from a high level no poll reads a release. -/
theorem aResultIsReportedOnce : Obligations.AResultIsReportedOnce := by
  intro s t u ht hresult hu
  cases ht
  obtain ⟨-, -, hhigh⟩ := release_of_result_ne_none hresult
  have hnone : u.btnPoll.btn.result = resultNone := by
    by_contra hagain
    obtain ⟨hlow, -, -⟩ := release_of_result_ne_none hagain
    rw [hu, hhigh] at hlow
    contradiction
  obtain ⟨hres, hrsp, -, -⟩ := btnPoll_result_and_responded hnone
  exact ⟨_, exec_btnpoll u, hres, hrsp⟩

/-! ### What BTNPOLL depends on -/

/-- Settles O51: both polls read the same time, so they take the same side of the gate, and there the same level; the
result, the one field in which the two Button States may differ, is cleared first. -/
theorem btnpollDependsOnlyOnItsSampleAndWhatItReads : Obligations.BtnpollDependsOnlyOnItsSampleAndWhatItReads := by
  intro s u hprev hlast hpress hrelease hi hd
  have htime : s.timeNow = u.timeNow := timeNow_congr hi hd
  have hread : s.tookTime.pinRead .btnIn = u.tookTime.pinRead .btnIn := pinRead_congr (by simp [hi]) (by simp [hd]) _
  refine ⟨_, _, exec_btnpoll s, exec_btnpoll u, ?_⟩
  by_cases hgate : 50#32 ≤ s.timeNow - s.btn.lastPoll
  · rw [btnPoll_gateOpen s hgate, btnPoll_gateOpen u (by rwa [← htime, ← hlast])]
    simp [hprev, hlast, hpress, hrelease, htime, hread, hi, hd]
  · have hshut := BitVec.not_le.mp hgate
    rw [btnPoll_gateShut s hshut, btnPoll_gateShut u (by rwa [← htime, ← hlast])]
    simp [hprev, hlast, hpress, hrelease, hi, hd]

end Sys2Proof.Machine
end

section
/-! Proofs: exceptions and isolation (60_exceptions.md). Which word a command that changes a unit's state was. -/

namespace Sys2Proof.Machine

/-- No command but ENCPOLL changes the Encoder State (R199). -/
theorem exec_enc_unchanged {i : Instr} {s t : State} (hi : i ≠ .encpoll) (h : exec i s = .next t) : t.enc = s.enc := by
  by_cases hb : i = .btnpoll
  · subst hb
    cases h
    exact (btnPoll_enc_unchanged s).1
  · exact (exec_busEffect hi hb h).unchanged.1

/-- No command but BTNPOLL changes the Button State (R199). -/
theorem exec_btn_unchanged {i : Instr} {s t : State} (hi : i ≠ .btnpoll) (h : exec i s = .next t) : t.btn = s.btn := by
  by_cases he : i = .encpoll
  · subst he
    cases h
    exact (encPoll_btn_unchanged s).1
  · obtain ⟨-, hbtn, -⟩ := (exec_busEffect he hi h).unchanged
    exact hbtn

/-- A step on a presented word executes the command that the word encodes, or leaves both units alone (R83, R86). -/
theorem step_executes_or_units_unchanged {s t : State} {w : Word} {rest : List HostMove}
    (hhost : s.host = .command w :: rest) (h : step s = .next t) :
    (∃ i, encode i = w ∧ exec i (s.accept rest) = .next t) ∨ (t.enc = s.enc ∧ t.btn = s.btn) := by
  obtain ⟨hnil, -⟩ | ⟨_, hsetUp, -⟩ | ⟨_, hrst, -⟩ | ⟨w', rest', hcommand, -, -, hrun⟩ := step_cases h
  · simp [hnil] at hhost
  · simp [hsetUp] at hhost
  · simp [hrst] at hhost
  obtain ⟨⟨rfl⟩, rfl⟩ := List.cons.inj (hhost.symm.trans hcommand)
  obtain ⟨i, hdecode, hexec⟩ | ⟨-, rfl⟩ := hrun
  · obtain ⟨-, hencode, -⟩ := encodeOfDecodeIsTheWord w i hdecode
    exact .inl ⟨i, hencode, hexec⟩
  · exact .inr ⟨rfl, rfl⟩

/-- Settles O19: the word was a command, that command was the unit's own poll, and each poll has one encoding. -/
theorem onlyAUnitsOwnPollChangesItsState : Obligations.OnlyAUnitsOwnPollChangesItsState := by
  intro s t w rest hhost hstep
  obtain ⟨i, rfl, hexec⟩ | ⟨henc, hbtn⟩ := step_executes_or_units_unchanged hhost hstep
  · refine ⟨fun hchanged => ?_, fun hchanged => ?_⟩
    · have hi : i = .encpoll := by_contra fun hne =>
        hchanged ((exec_enc_unchanged hne hexec).trans (s.accept_enc rest))
      rw [hi]
      rfl
    · have hi : i = .btnpoll := by_contra fun hne =>
        hchanged ((exec_btn_unchanged hne hexec).trans (s.accept_btn rest))
      rw [hi]
      rfl
  · exact ⟨fun hchanged => absurd henc hchanged, fun hchanged => absurd hbtn hchanged⟩

end Sys2Proof.Machine
end

section
/-! Proofs: reset and hazards (70_reset_and_hazards.md). The moves that a state bars, and the set-up. -/

namespace Sys2Proof.Machine

/-! ### Moves that are refused -/

/-- Before the set-up every command is barred, whatever `cmd_ready` is (U15, R225). -/
theorem barsCommand_of_not_setupDone {s : State} (h : s.setupDone = false) :
    s.barsCommand = some .commandBeforeSetUp := by
  simp [State.barsCommand, h]

/-- After the set-up a command is barred while another executes (U10, R230). -/
theorem barsCommand_of_executing {s : State} (h : s.setupDone = true) (hc : s.pins.cmdReady = false) :
    s.barsCommand = some .commandWhileExecuting := by
  simp [State.barsCommand, h, hc]

/-- A reset is barred while a command executes (U14, R221). -/
theorem barsReset_of_executing {s : State} (hc : s.pins.cmdReady = false) :
    s.barsReset = some .resetWhileExecuting := by
  simp [State.barsReset, hc]

/-- A presented command that is barred is refused by the name of what bars it. -/
theorem step_of_command_barred {s : State} {w : Word} {rest : List HostMove} {r : Refusal}
    (h : s.host = .command w :: rest) (hr : s.barsCommand = some r) : step s = .refused r := by
  simp [step, h, presentCommand, hr]

/-- A pulsed reset that is barred is refused by the name of what bars it. -/
theorem step_of_rst_barred {s : State} {rest : List HostMove} {r : Refusal}
    (h : s.host = .rst :: rest) (hr : s.barsReset = some r) : step s = .refused r := by
  simp [step, h, pulseReset, hr]

/-- Settles O8: each of the three states bars the move by its name, and a barred move is refused by that name. -/
theorem movesTheHostDoesNotHaveAreRefused : Obligations.MovesTheHostDoesNotHaveAreRefused := by
  intro s w rest
  exact ⟨fun h hs => step_of_command_barred h (barsCommand_of_not_setupDone hs),
    fun h hs hc => step_of_command_barred h (barsCommand_of_executing hs hc),
    fun h hc => step_of_rst_barred h (barsReset_of_executing hc)⟩

/-! ### The set-up -/

/-- The set-up move is taken in every state (R225). -/
theorem step_of_setUp {s : State} {rest : List HostMove} (h : s.host = .setUp :: rest) :
    step s = .next (s.setUpEvent rest) := by
  rw [step, h]

@[simp] theorem State.setUpEvent_setupDone (s : State) (rest : List HostMove) :
    (s.setUpEvent rest).setupDone = true := rfl

@[simp] theorem State.setUpEvent_pins (s : State) (rest : List HostMove) :
    (s.setUpEvent rest).pins = { s.pins with csN := SelectLines.idle, sck := false } := rfl

/-- A presented word, legal or not, is taken and completes wherever the set-up is done and no command executes, whatever
the levels of the serial lines (R225, R230). -/
theorem step_of_command_completes {s : State} {w : Word} {rest : List HostMove} (h : s.host = .command w :: rest)
    (hs : s.setupDone = true) (hc : s.pins.cmdReady = true) : ∃ t, step s = .next t := by
  obtain ⟨t, ht, -⟩ := runCommand_effect w rest s
  exact ⟨t, (step_of_command h hs hc).trans ht⟩

/-- Settles O14: the step is the set-up event, which drives the select lines and the clock only; so `cmd_ready` is kept,
and with it and the set-up done the next word completes. -/
theorem setUpMakesTheLinesReady : Obligations.SetUpMakesTheLinesReady := by
  intro s rest h
  refine ⟨s.setUpEvent rest, step_of_setUp h, s.setUpEvent_setupDone rest, ?_, ?_, rfl, rfl, rfl, rfl, rfl, ?_, ?_⟩
  · intro l
    rw [State.setUpEvent_pins, SelectLines.idle_level]
  · rw [State.setUpEvent_pins]
  · rw [State.setUpEvent_pins]
  · intro hc w moves
    exact step_of_command_completes rfl (s.setUpEvent_setupDone rest) (by rw [State.setUpEvent_pins, hc])

end Sys2Proof.Machine
end
